-- ==== Sys2Proof/Word.lean ====
section
/-! DEFINITION. The byte every frame and table entry of the part is made of (R185), and the index types of its units. -/

namespace Sys2Proof

/-- A data byte: the eight payload bits of a class 0 character (00 section 4.7). -/
abbrev Byte := BitVec 8

/-- A car index, 0 to 23 (00 section 1.2). -/
abbrev CarIx := Fin 24
/-- A floor index, 0 to 159. -/
abbrev FloorIx := Fin 160
/-- A kiosk index, 0 to 31. -/
abbrev KioskIx := Fin 32
/-- A panel number, 0 to 119 (R104). -/
abbrev PanelIx := Fin 120
/-- A panel link, PL0 to PL7. -/
abbrev LinkIx := Fin 8
/-- A panel address on a link, 0 to 14 (R127). -/
abbrev Addr := Fin 15
/-- A cadence timer, CT0 to CT3. -/
abbrev TimerIx := Fin 4
/-- A notice index, 0 to 15. -/
abbrev NoticeIx := Fin 16
/-- An entry of the text table, 0 to 63. -/
abbrev TextIx := Fin 64
/-- A zone, 0 to 15. -/
abbrev Zone := Fin 16

end Sys2Proof
end

