-- ==== Sys2Proof/Syntax.lean ====
section
/-! DEFINITION. The commands of the part: one constructor for each row of spec/opcode_table.json. -/

namespace Sys2Proof

/-- Whom a management request is addressed to: this node (target equal to its address) or all nodes (target 63, R163). -/
inductive Dest where
  | own | all
deriving DecidableEq, Repr

/-- A character received on U that neither begins, ends nor breaks a frame: a data character, or an IDLE (R160). -/
inductive RxChar where
  | data (b : Byte)
  | idle
deriving DecidableEq, Repr

/-- Whether the character is IDLE. -/
def RxChar.isIdle : RxChar → Bool
  | .idle => true
  | .data _ => false

/-- The data characters among those received: an IDLE is no part of a frame's content (R160). -/
def dataOf : List RxChar → List Byte
  | [] => []
  | .idle :: cs => dataOf cs
  | .data b :: cs => b :: dataOf cs

/-- What breaks a frame on U besides silence (R160, R161): an ABORT character, a START before the END, or its 254th data
character (which stands among the characters the command carries). -/
inductive BreakCause where
  | abort | start | tooLong
deriving DecidableEq, Repr

/-- What arrives on C of a return frame (R167): its START; its remaining data characters and its END; an ABORT; or the whole
frame, START to END. `data` is header, payload and CRC-16. -/
inductive ReturnArrival where
  | opens
  | closes (data : List Byte)
  | aborts
  | whole (data : List Byte)
deriving DecidableEq, Repr

/-- The commands. A frame's row carries the bytes of its payload (R186, R187); a row of the U receiver that carries
characters carries the data and IDLE characters that arrived since the receiver's last event (log 3, log 7). -/
inductive Instr where
  | powerOnReset (straps : BitVec 6)
  | baseTick
  | housekeepingTick
  | limitEvent (t : TimerIx)
  | carStale (c : CarIx)
  | promptExpired (k : KioskIx) (ticket : BitVec 16)
  | markerReachesZero (k : KioskIx) (ticket : BitVec 16)
  | dispatchLost
  | keepAliveDue (p : PanelIx)
  | faultedRetryDue (p : PanelIx)
  | forwardingDecision (kind : Byte) (target : Byte)
  | frameComplete (chars : List RxChar)
  | brokenFrame (chars : List RxChar) (cause : BreakCause)
  | frameSilence
  | carState (payload : List Byte)
  | assign (payload : List Byte)
  | cancel (payload : List Byte)
  | noticeOn (index : Byte)
  | noticeOff (index : Byte)
  | cadenceSync (payload : List Byte)
  | tableWrite (dest : Dest) (tag : Byte) (payload : List Byte)
  | tableContinue (dest : Dest) (tag : Byte) (payload : List Byte)
  | tableRead (dest : Dest) (tag : Byte) (payload : List Byte)
  | bankSelect (dest : Dest) (tag : Byte) (payload : List Byte)
  | stateReadNode (dest : Dest) (tag : Byte)
  | stateReadPanels (dest : Dest) (tag : Byte) (first : Byte) (count : Byte)
  | stateReadCar (dest : Dest) (tag : Byte) (car : Byte)
  | stateReadKiosk (dest : Dest) (tag : Byte) (kiosk : Byte)
  | stateReadNotices (dest : Dest) (tag : Byte)
  | stateReadExercise (dest : Dest) (tag : Byte)
  | counterReadKeep (dest : Dest) (tag : Byte)
  | counterReadClear (dest : Dest) (tag : Byte)
  | alertMask (dest : Dest) (tag : Byte) (payload : List Byte)
  | alertClear (dest : Dest) (tag : Byte) (payload : List Byte)
  | exerciseStart (dest : Dest) (tag : Byte) (payload : List Byte)
  | exerciseStop (dest : Dest) (tag : Byte) (payload : List Byte)
  | nodeReset (dest : Dest) (tag : Byte) (payload : List Byte)
  | addressSet (dest : Dest) (tag : Byte) (payload : List Byte)
  | returnFrame (arrival : ReturnArrival)
  | uTransmitEnd
  | schedulerPick (l : LinkIx)
  | lastLineSent (l : LinkIx)
  | phaseFrameEnd (l : LinkIx)
  | exerciseFrameSent (l : LinkIx)
  | replyWindowEnd (l : LinkIx)
  | ack (l : LinkIx) (data : List Byte)
  | replyFrameBroken (l : LinkIx)
  | echo (l : LinkIx) (data : List Byte)
  | entryCrc8Arrives (chars : List RxChar)
  | writeStartIndexArrives (tag : Byte) (tableId : Byte) (start : Byte)
  | returnFrameSilence
  | panelLinkAbortSent (l : LinkIx)
  | resetPinLow
deriving DecidableEq, Repr

end Sys2Proof
end

