-- ==== Sys2Proof/Config.lean ====
section
/-! DEFINITION. The fixed quantities of the part that more than one block reads, and the model's one free value (log 16). -/

namespace Sys2Proof.Config

/-- The highest position and level, in millimetres above the building datum (R1, R5). -/
def maxPosition : Nat := 1048575
/-- The largest magnitude of a stored velocity, in mm/s (R8). -/
def maxVelocity : Nat := 16000
/-- The value at which the node's counters and the missing-echo count saturate (R180, R149). -/
def counterMax : Nat := 65535
/-- The value at which frames sent and error bytes of the exercise record saturate (R149). -/
def exerciseMax : Nat := 4294967295
/-- Prompt records a queue holds at most (R47). -/
def queueMax : Nat := 8
/-- Base ticks to a housekeeping tick (R86). -/
def baseTicksPerHousekeeping : Nat := 100
/-- Data bytes of entries a TABLE READ returns at most (R177). -/
def readBytesMax : Nat := 240
/-- Extra characters the delay line holds at most (R164). -/
def maxExtra : Nat := 3
/-- Characters of the delay line (R163). -/
def delayLength : Nat := 3
/-- The address of a PHASE frame (R127). -/
def broadcast : Nat := 15

/-- The free value of R176: the table by whose entry size the entries of a TABLE CONTINUE that finds no write open are checked.
No rule names it; each such frame takes the next one, and nothing is known of any of them (log 16). -/
opaque closedTable : Nat → Fin 11

/-- The strap value State.reset stands for: DESIGN CHOICE 0, unsafe, log 1 (R169 reads the pins, which the spec cannot give). -/
def resetStraps : BitVec 6 := 0

end Sys2Proof.Config
end

