-- ==== Sys2Proof/Machine/State.lean ====
section
/-! DEFINITION. Everything the spec lets the part hold, as plain data, and its values right after a power-on reset. -/

namespace Sys2Proof.Machine

/-! ### Enumerated fields -/

/-- A committed direction, an arrow, or a chime (R5, R111, R128): the three share the codes 0, 1, 2. -/
inductive Dir where
  | none | up | down
deriving DecidableEq, Repr

/-- The phase of a cadence timer (R88). -/
inductive Phase where
  | a | b
deriving DecidableEq, Repr

/-- The blink of a line, and the cadence of a notice: a timer or STEADY (R70, R111). -/
inductive Blink where
  | ct (t : TimerIx)
  | steady
deriving DecidableEq, Repr

/-- Express behaviour of a car (R2). -/
inductive Express where
  | countThrough | hold | blank
deriving DecidableEq, Repr

/-- Stale policy of a car (R20). -/
inductive StalePolicy where
  | holdLast | dashes | blank
deriving DecidableEq, Repr

/-- Entrance state of a car (R5). -/
inductive Entrance where
  | closed | opening | open | closing
deriving DecidableEq, Repr

/-- Service mode of a car (R5). -/
inductive Mode where
  | normal | independent | fire | outOfService | inspection
deriving DecidableEq, Repr

/-- The deck a route or a lantern names; LOWER is also SINGLE (R30, R106). -/
inductive Deck where
  | lower | upper
deriving DecidableEq, Repr

/-- The deck of a prompt record, and of an entrance-closed event (R48, R26). -/
inductive PromptDeck where
  | single | lower | upper
deriving DecidableEq, Repr

/-- Class of a prompt (R48). -/
inductive PromptClass where
  | standard | accessible | priority | group
deriving DecidableEq, Repr

/-- Class of a notice (R70). -/
inductive NoticeClass where
  | evacuation | recall | closure | advisory
deriving DecidableEq, Repr

/-- Panel kind (R104). -/
inductive PanelKind where
  | carIndicator | lantern | kioskScreen | overviewBoard | noticeBoard
deriving DecidableEq, Repr

/-- Source kind of a route (R106). -/
inductive SourceKind where
  | off | carView | lantern | kioskView | overview | fixedText
deriving DecidableEq, Repr

/-- Loss action of a route (R114). -/
inductive LossAction where
  | hold | blank | fallback
deriving DecidableEq, Repr

/-- Mode of a cadence timer (R87). -/
inductive CadenceMode where
  | off | single | alternate
deriving DecidableEq, Repr

/-- What a cadence timer counts (R87). -/
inductive TimerSource where
  | base | ct3
deriving DecidableEq, Repr

/-- The kind of event that retriggers a timer (R87, R95). -/
inductive Retrigger where
  | none | lanternArrival | noticeActivation | reassignment
deriving DecidableEq, Repr

/-- State of a lantern record (R30). -/
inductive LanternState where
  | dark | announcing | arrived | closing
deriving DecidableEq, Repr

/-- Content kind (R111). -/
inductive ContentKind where
  | off | blank | text | car | lantern | kiosk | overview | notice
deriving DecidableEq, Repr

/-- Route bank (R106). -/
inductive Bank where
  | a | b
deriving DecidableEq, Repr

/-- Line activity of a panel link (R129). -/
inductive Activity where
  | idleFill | sendingSequence | awaitingAck | sendingPhase | exercise
deriving DecidableEq, Repr

/-- The classes of R137 that send a refresh sequence: 1, 3, 4, 5. -/
inductive WorkClass where
  | urgent | ordinary | keepAlive | retry
deriving DecidableEq, Repr

/-- Exercise pattern (R152). -/
inductive Pattern where
  | p7 | p15 | alt
deriving DecidableEq, Repr

/-- Exercise window (R149). -/
inductive Window where
  | w256 | w1024 | w4096 | w65536 | untimed
deriving DecidableEq, Repr

/-- Exercise state (R149). -/
inductive ExState where
  | idle | running | done | aborted
deriving DecidableEq, Repr

/-- Why a run ended (R149). -/
inductive EndCause where
  | none | window | stop | urgent | panelDisabled
deriving DecidableEq, Repr

/-- The sixteen counters, in the order of R180's table. -/
inductive CounterId where
  | goodFrames | crcFailures | brokenFrames | unknownKinds | badTargets | malformed | clampedFields | inputClamps
  | assignRefused | unmatchedCancels | promptsEvicted | promptsExpired | promptsBoarded | promptsFlushed
  | returnDrops | panelMisses
deriving DecidableEq, Repr

/-- The ten alert kinds, in the bit order of R188. -/
inductive AlertId where
  | dispatchLost | dispatchRestored | panelFaultChange | linkFault | kindMismatch | routeMismatch | promptEvicted
  | entryCheckFailed | exerciseEnded | counterSaturated
deriving DecidableEq, Repr

/-- A character on a link (00 section 4.7): a class 0 data byte or one of the four control characters. -/
inductive LineChar where
  | data (b : Byte)
  | start | stop | abort | idle
deriving DecidableEq, Repr

/-! ### Tables (R172, R190) -/

/-- The profile (table 0): its fields as stored, a 0 that means "default" nowhere among them (R190, R191). -/
structure Profile where
  vmin : Nat
  lead : Nat
  leadCap : Nat
  hysteresis : Nat
  window : Nat
  staleTime : Nat
  promptHold : Nat
  withdrawnHold : Nat
  markerTime : Nat
  lossTimeout : Nat
  keepAlive : Nat
  retry : Nat
  assertThreshold : Nat
  clearThreshold : Nat
  lanternTimer : TimerIx
  markerTimer : TimerIx
  fireText : TextIx
  outOfServiceText : TextIx
  inspectionText : TextIx
  independentText : TextIx
  withdrawnText : TextIx
deriving DecidableEq, Repr

/-- A floor entry (R1). -/
structure FloorEntry where
  defined : Bool
  lobby : Bool
  zone : Zone
  level : Nat
  label : List Byte
deriving DecidableEq, Repr

/-- A car entry (R2). -/
structure CarEntry where
  enabled : Bool
  label : List Byte
  deckOffset : Nat
  leadTime : Nat
  leadCap : Nat
  hysteresis : Nat
  levelWindow : Nat
  express : Express
  staleTime : Nat
  stalePolicy : StalePolicy
  lanternLead : Nat
deriving DecidableEq, Repr

/-- A kiosk entry (R45). -/
structure KioskEntry where
  enabled : Bool
  zone : Zone
  floor : FloorIx
  hold : Nat
  withdrawnHold : Nat
deriving DecidableEq, Repr

/-- A panel entry (R104). -/
structure PanelEntry where
  enabled : Bool
  zone : Zone
  kind : PanelKind
  lines : Nat
  columns : Nat
deriving DecidableEq, Repr

/-- A route entry (R106). -/
structure Route where
  kind : SourceKind
  a : Nat
  b : Nat
  deck : Deck
  mirror : Bool
  count : Nat
  blink : Blink
  loss : LossAction
  fallback : TextIx
deriving DecidableEq, Repr

/-- A notice entry (R70, R192). -/
structure NoticeEntry where
  enabled : Bool
  cls : NoticeClass
  cadence : Blink
  text : TextIx
  kinds : BitVec 5
  zones : BitVec 16
deriving DecidableEq, Repr

/-- A cadence entry (R87). -/
structure CadenceEntry where
  mode : CadenceMode
  oneShot : Bool
  source : TimerSource
  limitA : Nat
  limitB : Nat
  retrigger : Retrigger
deriving DecidableEq, Repr

/-- The eleven tables of R190. -/
structure Tables where
  profile : Profile
  floors : Vector FloorEntry 160
  cars : Vector CarEntry 24
  service : Vector (BitVec 160) 24
  kiosks : Vector KioskEntry 32
  panels : Vector PanelEntry 120
  routesA : Vector Route 120
  routesB : Vector Route 120
  texts : Vector (List Byte) 64
  notices : Vector NoticeEntry 16
  cadence : Vector CadenceEntry 4
deriving DecidableEq, Repr

/-! ### Block state -/

/-- The per-deck fields of a car record (R5). -/
structure DeckRec where
  floor : Option FloorIx
  atFloor : Bool
  openFloor : Option FloorIx
deriving DecidableEq, Repr

/-- A car record (R5). -/
structure CarRec where
  present : Bool
  stale : Bool
  position : Nat
  velocity : Int
  entrance : Entrance
  mode : Mode
  direction : Dir
  nextStop : Option FloorIx
  lower : DeckRec
  upper : DeckRec
  recDir : Dir
  staleCountdown : Nat
  snapPending : Bool
deriving DecidableEq, Repr

/-- A lantern record (R30). `chimeRound` says that the panel's content version has come round to the chime version again
(R40, log 11). -/
structure Lantern where
  floor : FloorIx
  car : CarIx
  deck : Deck
  state : LanternState
  chime : Dir
  given : Bool
  chimeVersion : Option Byte
  chimeRound : Bool
deriving DecidableEq, Repr

/-- A prompt record (R48). -/
structure Prompt where
  ticket : BitVec 16
  destination : FloorIx
  car : CarIx
  deck : PromptDeck
  cls : PromptClass
  hold : Nat
  marker : Nat
  withdrawn : Bool
deriving DecidableEq, Repr

/-- The state of a cadence timer (R88). -/
structure Timer where
  count : Nat
  phase : Phase
  cycle : Byte
  running : Bool
  armed : Bool
deriving DecidableEq, Repr

/-- A line of a content record (R111). -/
structure Line where
  text : List Byte
  arrow : Dir
  blink : Blink
deriving DecidableEq, Repr

/-- What a composition gives (R112, R113). Lines above the panel's line count are not part of the record (R104, log 13). -/
structure Content where
  kind : ContentKind
  lines : List Line
  chime : Dir
  urgent : Bool
deriving DecidableEq, Repr

/-- A content record (R111). `held` is the content beneath the notices captured under the HOLD loss action (R115). -/
structure ContentRec where
  content : Content
  version : Byte
  acked : Option Byte
  ackedUrgent : Bool
  held : Option Content
  mismatch : Bool
deriving DecidableEq, Repr

/-- A panel health record (R129). -/
structure Health where
  misses : Nat
  goods : Nat
  faulted : Bool
  delta : Bool
  kindMismatch : Bool
  lampFault : Bool
  tempWarning : Bool
  keepAlive : Nat
  retry : Nat
deriving DecidableEq, Repr

/-- A refresh sequence in flight: the copy it is sent from (R130). -/
structure Sequence where
  panel : PanelIx
  cls : WorkClass
  version : Byte
  urgent : Bool
  kind : ContentKind
  chime : Dir
  lines : List Line
deriving DecidableEq, Repr

/-- A panel link controller (R129). `phaseOnLine` holds what the PHASE frame being sent carries (R135); `aborting` says that
the ABORT of a NODE RESET is going out (R148). -/
structure Link where
  activity : Activity
  sequence : Option Sequence
  phaseOnLine : Option (List (Phase × Byte))
  aborting : Bool
  phasePending : Bool
  lastServed : Addr
  fault : Bool
  bank : Bank
deriving DecidableEq, Repr

/-- The pattern generator's register (R152). -/
inductive Gen where
  | p7 (r : BitVec 7)
  | p15 (r : BitVec 15)
  | alt (nextIsAA : Bool)
deriving DecidableEq, Repr

/-- The exercise record (R149), with the 16 bytes of the frame in flight (R152) and whether its reply window is open (R153). -/
structure Exercise where
  state : ExState
  startPending : Bool
  endRequested : Bool
  link : LinkIx
  panel : Addr
  pattern : Pattern
  window : Window
  gen : Gen
  framesSent : Nat
  errorBytes : Nat
  missing : Nat
  firstError : Option Nat
  cause : EndCause
  flight : Option (List Byte)
  awaiting : Bool
deriving DecidableEq, Repr

/-- The dispatch loss detector (R166). -/
structure Loss where
  asserted : Bool
  countdown : Nat
deriving DecidableEq, Repr

/-- What becomes of a frame, decided from its target as it arrives and kept for the whole frame (R163). -/
inductive Target where
  | own | other | all | operational | bad
deriving DecidableEq, Repr

/-- Where the table write carried by a frame stands as its characters arrive (R173, R174, R176). -/
inductive WriteStage where
  /-- the table id has not arrived -/
  | tableId
  /-- the table id has arrived (none where it is 11 or more), the start index has not -/
  | startIndex (table : Option (Fin 11))
  /-- entries are stored at the open write -/
  | entries
  /-- the table id was 11 or more -/
  | badTable
  /-- the start index was at or beyond the table's entry count -/
  | badRange
  /-- an entry failed its CRC-8: every later byte is discarded -/
  | failed
  /-- a TABLE CONTINUE that found no write open: its entries, taken to be of this size, are checked but not stored -/
  | noWrite (size : Nat)
  /-- such an entry failed its CRC-8: every later byte is discarded -/
  | noWriteFailed
deriving DecidableEq, Repr

/-- A table write while its frame arrives: the bytes of the entry arriving, the entries this frame stored, and those held
during dispatch loss (R174). -/
structure WriteRx where
  stage : WriteStage
  buf : List Byte
  stored : Nat
  held : List (List Byte)
deriving DecidableEq, Repr

/-- The U port receiver (R160 to R163): whether it is inside a frame, the frame's data characters so far, the decision kept
for it, whether C sends IDLE in place of it for want of delay (R164), and its table write. -/
structure URx where
  inFrame : Bool
  data : List Byte
  target : Option Target
  blanked : Bool
  write : WriteRx
deriving DecidableEq, Repr

/-- The C port transmitter: the delay line, the extra characters it holds (R163, R164), and the characters sent (log 7). -/
structure CPort where
  line : List LineChar
  extra : Nat
  sent : List LineChar
deriving DecidableEq, Repr

/-- A frame of this node on its way up: REPLY or ALERT (R160, R188). -/
structure UpFrame where
  kind : Byte
  source : Byte
  tag : Byte
  payload : List Byte
deriving DecidableEq, Repr

/-- What the U transmitter is sending (R168). -/
inductive UTx where
  | reply (f : UpFrame)
  | alert (f : UpFrame)
  | returned (slot : Fin 2)
deriving DecidableEq, Repr

/-- A buffer slot of the return merger (R167). -/
inductive Slot where
  | free
  | receiving
  | kept (data : List Byte)
deriving DecidableEq, Repr

/-- What the merger's turn points to (R168). -/
inductive Turn where
  | returns | alert
deriving DecidableEq, Repr

/-- The C port receiver (R167): outside a frame, receiving one into a slot, or discarding one. -/
inductive CRx where
  | outside
  | receiving (slot : Fin 2)
  | discarding
deriving DecidableEq, Repr

/-- The return path (R167, R168, R171). -/
structure Up where
  reply : Option UpFrame
  tx : Option UTx
  slots : Vector Slot 2
  order : List (Fin 2)
  turn : Turn
  crx : CRx
deriving DecidableEq, Repr

/-- An open write (R173). -/
structure OpenWrite where
  table : Fin 11
  pointer : Nat
deriving DecidableEq, Repr

/-- The management unit (R169, R171, R173, R180 to R182). -/
structure Mgmt where
  address : Nat
  strap : BitVec 6
  selected : Bank
  openWrite : Option OpenWrite
  counters : Vector Nat 16
  flags : BitVec 10
  mask : BitVec 10
  newly : BitVec 10
deriving DecidableEq, Repr

/-- The whole part, and what is the model's own: the queue of commands that wait for the part (first in, first out), and how
many of Config's free values have been taken (log 16). -/
structure State where
  pending : List Instr
  inReset : Bool
  tables : Tables
  cars : Vector CarRec 24
  lanterns : Vector (Option Lantern) 120
  queues : Vector (List Prompt) 32
  active : Vector Bool 16
  baseCount : Nat
  timers : Vector Timer 4
  contents : Vector ContentRec 120
  health : Vector Health 120
  links : Vector Link 8
  exercise : Exercise
  loss : Loss
  rx : URx
  cport : CPort
  up : Up
  mgmt : Mgmt
  draws : Nat
deriving DecidableEq, Repr

/-- The part has no way to stop with a fault: what the spec calls faulted is a state of a panel or link (R143, R145), and bad
frames are dropped, refused and counted. The one constructor is raised by no command; it keeps the type inhabited (safe). -/
inductive Fault where
  /-- Raised by no command of this model: safe. -/
  | none
deriving DecidableEq, Repr

/-- Why a command has no meaning. -/
inductive Refusal where
  /-- A command whose arm of exec gives it no meaning yet; raised by such an arm only: safe. -/
  | notModelled (mnemonic : String)
deriving DecidableEq, Repr

/-! ### Power-on values -/

/-- `n` spaces. -/
def spaces (n : Nat) : List Byte := List.replicate n 32#8

/-- The factory profile (R190). -/
def Profile.factory : Profile :=
  { vmin := 50, lead := 400, leadCap := 2500, hysteresis := 100, window := 25, staleTime := 30, promptHold := 80
    withdrawnHold := 30, markerTime := 30, lossTimeout := 20, keepAlive := 50, retry := 10, assertThreshold := 3
    clearThreshold := 2, lanternTimer := 1, markerTimer := 2, fireText := 0, outOfServiceText := 0, inspectionText := 0
    independentText := 0, withdrawnText := 0 }

/-- A floor entry at power-on (R1; lobby and zone: log 2). -/
def FloorEntry.powerOn : FloorEntry := { defined := false, lobby := false, zone := 0, level := 0, label := spaces 4 }

/-- A car entry at power-on (R2; label: log 2). -/
def CarEntry.powerOn : CarEntry :=
  { enabled := false, label := spaces 2, deckOffset := 0, leadTime := 0, leadCap := 0, hysteresis := 0, levelWindow := 0
    express := .countThrough, staleTime := 0, stalePolicy := .holdLast, lanternLead := 0 }

/-- A kiosk entry at power-on (R45). -/
def KioskEntry.powerOn : KioskEntry := { enabled := false, zone := 0, floor := 0, hold := 0, withdrawnHold := 0 }

/-- A panel entry at power-on (R104). -/
def PanelEntry.powerOn : PanelEntry := { enabled := false, zone := 0, kind := .carIndicator, lines := 1, columns := 4 }

/-- A route entry at power-on (R106, R191). -/
def Route.powerOn : Route :=
  { kind := .off, a := 0, b := 0, deck := .lower, mirror := false, count := 1, blink := .steady, loss := .hold, fallback := 0 }

/-- A notice entry at power-on (R70). -/
def NoticeEntry.powerOn : NoticeEntry :=
  { enabled := false, cls := .evacuation, cadence := .ct 0, text := 0, kinds := 0, zones := 0 }

/-- A cadence entry at power-on (R87). -/
def CadenceEntry.powerOn : CadenceEntry :=
  { mode := .off, oneShot := false, source := .base, limitA := 0, limitB := 0, retrigger := .none }

/-- The tables at power-on. -/
def Tables.powerOn : Tables :=
  { profile := .factory
    floors := .replicate 160 .powerOn
    cars := .replicate 24 .powerOn
    service := .replicate 24 0
    kiosks := .replicate 32 .powerOn
    panels := .replicate 120 .powerOn
    routesA := .replicate 120 .powerOn
    routesB := .replicate 120 .powerOn
    texts := .replicate 64 (spaces 20)
    notices := .replicate 16 .powerOn
    cadence := .replicate 4 .powerOn }

/-- Per-deck fields after reset, and those of an upper deck a car does not have (R5, R6). -/
def DeckRec.powerOn : DeckRec := { floor := none, atFloor := false, openFloor := none }

/-- A car record after reset, NODE RESET or disabling (R6). -/
def CarRec.powerOn : CarRec :=
  { present := false, stale := false, position := 0, velocity := 0, entrance := .closed, mode := .normal, direction := .none
    nextStop := none, lower := .powerOn, upper := .powerOn, recDir := .none, staleCountdown := 0, snapPending := true }

/-- A timer at power-on (R101). -/
def Timer.powerOn : Timer := { count := 0, phase := .a, cycle := 0, running := false, armed := false }

/-- A blank steady line of the given width. -/
def Line.blank (columns : Nat) : Line := { text := spaces columns, arrow := .none, blink := .steady }

/-- A content record at power-on (R111): eight lines of spaces, as wide as the power-on panel entry's columns. -/
def ContentRec.powerOn : ContentRec :=
  { content := { kind := .off, lines := List.replicate 8 (Line.blank 4), chime := .none, urgent := false }
    version := 0, acked := none, ackedUrgent := false, held := none, mismatch := false }

/-- A health record at power-on and after NODE RESET (R129, R148). -/
def Health.powerOn : Health :=
  { misses := 0, goods := 0, faulted := false, delta := false, kindMismatch := false, lampFault := false
    tempWarning := false, keepAlive := 0, retry := 0 }

/-- A panel link at power-on (R129, R108). -/
def Link.powerOn : Link :=
  { activity := .idleFill, sequence := none, phaseOnLine := none, aborting := false, phasePending := false
    lastServed := 14, fault := false, bank := .a }

/-- The exercise record at power-on and after NODE RESET (R149). -/
def Exercise.powerOn : Exercise :=
  { state := .idle, startPending := false, endRequested := false, link := 0, panel := 0, pattern := .p7, window := .w256
    gen := .p7 (BitVec.allOnes 7), framesSent := 0, errorBytes := 0, missing := 0, firstError := none, cause := .none
    flight := none, awaiting := false }

/-- No table write in the frame being received. -/
def WriteRx.fresh : WriteRx := { stage := .tableId, buf := [], stored := 0, held := [] }

/-- The U receiver outside a frame (R183). -/
def URx.outside : URx := { inFrame := false, data := [], target := none, blanked := false, write := .fresh }

/-- The C port at power-on (R183; an empty delay line: log 7). -/
def CPort.powerOn : CPort := { line := [], extra := 0, sent := [] }

/-- The return path at power-on (R168, R183). -/
def Up.powerOn : Up :=
  { reply := none, tx := none, slots := .replicate 2 .free, order := [], turn := .returns, crx := .outside }

/-- The node address the straps give: 63 becomes 62 (R169). -/
def addressOfStraps (straps : BitVec 6) : Nat := min straps.toNat 62

/-- The management unit at power-on (R169, R183). -/
def Mgmt.powerOn (straps : BitVec 6) : Mgmt :=
  { address := addressOfStraps straps, strap := straps, selected := .a, openWrite := none, counters := .replicate 16 0
    flags := 0, mask := BitVec.allOnes 10, newly := 0 }

/-- The part right after its reset pin is released, with the given straps (R183, and each chapter's power-on values); that no free
value has been taken is the model's choice (log 16). -/
def State.powerOn (straps : BitVec 6) : State :=
  { pending := []
    inReset := false
    tables := .powerOn
    cars := .replicate 24 .powerOn
    lanterns := .replicate 120 none
    queues := .replicate 32 []
    active := .replicate 16 false
    baseCount := 0
    timers := .replicate 4 .powerOn
    contents := .replicate 120 .powerOn
    health := .replicate 120 .powerOn
    links := .replicate 8 .powerOn
    exercise := .powerOn
    loss := { asserted := true, countdown := 0 }
    rx := .outside
    cport := .powerOn
    up := .powerOn
    mgmt := .powerOn straps
    draws := 0 }

/-- The machine after reset: the straps read as log 1 says, nothing waits. -/
def State.reset : State := State.powerOn Config.resetStraps

end Sys2Proof.Machine
end

