-- ==== Sys2Proof/Machine/Ops.lean ====
section
/-! DEFINITION. The named reads and updates of the state, the counters and the alert flags: what every block uses. -/

namespace Sys2Proof.Machine

/-! ### Reads -/

def State.profile (s : State) : Profile := s.tables.profile
def State.floorEntry (s : State) (f : FloorIx) : FloorEntry := s.tables.floors[f]
def State.carEntry (s : State) (c : CarIx) : CarEntry := s.tables.cars[c]
/-- Whether the car's service map serves the floor (R3). -/
def State.serves (s : State) (c : CarIx) (f : FloorIx) : Bool := s.tables.service[c].getLsbD f.val
def State.kioskEntry (s : State) (k : KioskIx) : KioskEntry := s.tables.kiosks[k]
def State.panelEntry (s : State) (p : PanelIx) : PanelEntry := s.tables.panels[p]
def State.text (s : State) (t : TextIx) : List Byte := s.tables.texts[t]
def State.noticeEntry (s : State) (n : NoticeIx) : NoticeEntry := s.tables.notices[n]
def State.cadenceEntry (s : State) (t : TimerIx) : CadenceEntry := s.tables.cadence[t]
def State.car (s : State) (c : CarIx) : CarRec := s.cars[c]
def State.lantern (s : State) (p : PanelIx) : Option Lantern := s.lanterns[p]
def State.queue (s : State) (k : KioskIx) : List Prompt := s.queues[k]
/-- Whether the notice is in the active set (R71). -/
def State.isActive (s : State) (n : NoticeIx) : Bool := s.active[n]
def State.timer (s : State) (t : TimerIx) : Timer := s.timers[t]
def State.content (s : State) (p : PanelIx) : ContentRec := s.contents[p]
def State.healthOf (s : State) (p : PanelIx) : Health := s.health[p]
def State.link (s : State) (l : LinkIx) : Link := s.links[l]

/-! ### Updates: one for each field of the state -/

def State.setInReset (s : State) (x : Bool) : State := { s with inReset := x }
def State.setTables (s : State) (x : Tables) : State := { s with tables := x }
def State.setCar (s : State) (c : CarIx) (x : CarRec) : State := { s with cars := s.cars.set c x }
def State.setLantern (s : State) (p : PanelIx) (x : Option Lantern) : State := { s with lanterns := s.lanterns.set p x }
def State.setQueue (s : State) (k : KioskIx) (x : List Prompt) : State := { s with queues := s.queues.set k x }
def State.setActive (s : State) (n : NoticeIx) (x : Bool) : State := { s with active := s.active.set n x }
def State.setBaseCount (s : State) (x : Nat) : State := { s with baseCount := x }
def State.setTimer (s : State) (t : TimerIx) (x : Timer) : State := { s with timers := s.timers.set t x }
def State.setContent (s : State) (p : PanelIx) (x : ContentRec) : State := { s with contents := s.contents.set p x }
def State.setHealth (s : State) (p : PanelIx) (x : Health) : State := { s with health := s.health.set p x }
def State.setLink (s : State) (l : LinkIx) (x : Link) : State := { s with links := s.links.set l x }
def State.setExercise (s : State) (x : Exercise) : State := { s with exercise := x }
def State.setLoss (s : State) (x : Loss) : State := { s with loss := x }
def State.setRx (s : State) (x : URx) : State := { s with rx := x }
def State.setCPort (s : State) (x : CPort) : State := { s with cport := x }
def State.setUp (s : State) (x : Up) : State := { s with up := x }
def State.setMgmt (s : State) (x : Mgmt) : State := { s with mgmt := x }
def State.setDraws (s : State) (x : Nat) : State := { s with draws := x }

/-! ### Panels and links (R104, R127) -/

/-- The link of a panel number: floor(n / 15). -/
def panelLink (p : PanelIx) : LinkIx := ⟨p.val / 15, by omega⟩
/-- The address of a panel number on its link: n − 15 × floor(n / 15). -/
def panelAddr (p : PanelIx) : Addr := ⟨p.val % 15, by omega⟩
/-- The panel at an address of a link. -/
def panelAt (l : LinkIx) (a : Addr) : PanelIx := ⟨15 * l.val + a.val, by omega⟩

/-- All panels, in order of panel number. -/
def allPanels : List PanelIx := List.finRange 120
/-- The panels of one link, in order of address. -/
def linkPanels (l : LinkIx) : List PanelIx := (List.finRange 15).map (panelAt l)
/-- All links, PL0 first. -/
def allLinks : List LinkIx := List.finRange 8
/-- All floors, lowest index first. -/
def allFloors : List FloorIx := List.finRange 160
/-- All cars, all kiosks, all notices, all timers, lowest index first. -/
def allCars : List CarIx := List.finRange 24
def allKiosks : List KioskIx := List.finRange 32
def allNotices : List NoticeIx := List.finRange 16
def allTimers : List TimerIx := List.finRange 4

/-- Do `f` for each element of a list, in order. -/
def forEach {α : Type} (xs : List α) (f : α → State → State) (s : State) : State :=
  xs.foldl (fun s x => f x s) s

/-! ### Alert flags (R181, R182, R188) -/

/-- The bit of an alert flag (R188). -/
def AlertId.bit : AlertId → Nat
  | .dispatchLost => 0 | .dispatchRestored => 1 | .panelFaultChange => 2 | .linkFault => 3 | .kindMismatch => 4
  | .routeMismatch => 5 | .promptEvicted => 6 | .entryCheckFailed => 7 | .exerciseEnded => 8 | .counterSaturated => 9

/-- The flag alone, as a set of ten. -/
def AlertId.mask (a : AlertId) : BitVec 10 := 1#10 <<< a.bit

/-- An event of the alert kind: a clear flag is set and, if its enable is set, joins the newly raised set; a set flag changes
nothing (R181, R182). -/
def Mgmt.raise (a : AlertId) (m : Mgmt) : Mgmt :=
  if m.flags.getLsbD a.bit then m
  else { m with flags := m.flags ||| a.mask, newly := m.newly ||| (a.mask &&& m.mask) }

/-- Raise an alert flag in the management unit. -/
def raise (a : AlertId) (s : State) : State := s.setMgmt (s.mgmt.raise a)

/-- An ALERT is pending exactly while the newly raised set is not empty (R182). -/
def Mgmt.alertPending (m : Mgmt) : Bool := m.newly != 0

/-! ### Counters (R180) -/

/-- The place of a counter in R180's table. -/
def CounterId.index : CounterId → Fin 16
  | .goodFrames => 0 | .crcFailures => 1 | .brokenFrames => 2 | .unknownKinds => 3 | .badTargets => 4 | .malformed => 5
  | .clampedFields => 6 | .inputClamps => 7 | .assignRefused => 8 | .unmatchedCancels => 9 | .promptsEvicted => 10
  | .promptsExpired => 11 | .promptsBoarded => 12 | .promptsFlushed => 13 | .returnDrops => 14 | .panelMisses => 15

/-- The value of a counter. -/
def Mgmt.counter (m : Mgmt) (k : CounterId) : Nat := m.counters[k.index]

/-- One increment: a counter at 65,535 stays there; the increment that reaches 65,535 raises COUNTER SATURATED (R180). -/
def Mgmt.bump (k : CounterId) (m : Mgmt) : Mgmt :=
  let v := m.counter k
  if v < Config.counterMax then
    let m' := { m with counters := m.counters.set k.index (v + 1) }
    if v + 1 = Config.counterMax then m'.raise .counterSaturated else m'
  else m

/-- Increment a counter. -/
def bump (k : CounterId) (s : State) : State := s.setMgmt (s.mgmt.bump k)

/-- `n` increments. -/
def bumpN (k : CounterId) (n : Nat) (s : State) : State :=
  (List.range n).foldl (fun s _ => bump k s) s

/-! ### Outcomes -/

/-- What every command outside the reset pin does: nothing while the pin is held low (R183), its effect otherwise. -/
def act (s : State) (f : State → State) : Host.Outcome State Fault Refusal :=
  .next (if s.inReset then s else f s)

end Sys2Proof.Machine
end

