-- ==== Sys2Proof/Machine/Operands.lean ====
section
/-! DEFINITION. The operands of the commands: numbers of several bytes, enumerated codes, and the payload layouts of R186 to
R189. -/

namespace Sys2Proof.Machine

/-! ### Numbers of several bytes, most significant byte first (R185) -/

/-- The number a list of bytes spells, most significant byte first. -/
def natOfBytes (bs : List Byte) : Nat := bs.foldl (fun n b => n * 256 + b.toNat) 0

/-- The low byte of a number. -/
def byteOf (n : Nat) : Byte := BitVec.ofNat 8 n

/-- A number as two, three or four bytes, most significant byte first. -/
def bytes2 (n : Nat) : List Byte := [byteOf (n / 256), byteOf n]
def bytes3 (n : Nat) : List Byte := [byteOf (n / 65536), byteOf (n / 256), byteOf n]
def bytes4 (n : Nat) : List Byte := [byteOf (n / 16777216), byteOf (n / 65536), byteOf (n / 256), byteOf n]

/-- The signed number two bytes hold in two's complement (R185). -/
def int16OfBytes (hi lo : Byte) : Int := (hi ++ lo : BitVec 16).toInt

/-- A signed number as two bytes of two's complement. -/
def int16Bytes (v : Int) : List Byte := bytes2 (BitVec.ofInt 16 v).toNat

/-- A flag as 0 or 1. -/
def flagNat (b : Bool) : Nat := if b then 1 else 0

/-- Flags as the bits of a byte, bit 0 first. -/
def flagByte (bs : List Bool) : Byte := byteOf (bs.foldr (fun b n => flagNat b + 2 * n) 0)

/-- An index below `n`, where the number is one. -/
def indexOf (n v : Nat) : Option (Fin n) := if h : v < n then some ⟨v, h⟩ else none

/-- The largest index not above the number (a numeric field outside its range is the nearest limit, R172). -/
def clampIndex (n v : Nat) (h : 0 < n := by decide) : Fin n :=
  if hv : v < n then ⟨v, hv⟩ else ⟨n - 1, Nat.sub_lt h Nat.one_pos⟩

/-! ### Enumerated codes (R186) -/

def Entrance.ofCode : Nat → Option Entrance
  | 0 => some .closed | 1 => some .opening | 2 => some .open | 3 => some .closing | _ => none
def Entrance.code : Entrance → Nat
  | .closed => 0 | .opening => 1 | .open => 2 | .closing => 3
def Mode.ofCode : Nat → Option Mode
  | 0 => some .normal | 1 => some .independent | 2 => some .fire | 3 => some .outOfService | 4 => some .inspection | _ => none
def Mode.code : Mode → Nat
  | .normal => 0 | .independent => 1 | .fire => 2 | .outOfService => 3 | .inspection => 4
def Dir.ofCode : Nat → Option Dir
  | 0 => some .none | 1 => some .up | 2 => some .down | _ => Option.none
def Dir.code : Dir → Nat
  | .none => 0 | .up => 1 | .down => 2
def PromptDeck.ofCode : Nat → Option PromptDeck
  | 0 => some .single | 1 => some .lower | 2 => some .upper | _ => none
def PromptDeck.code : PromptDeck → Nat
  | .single => 0 | .lower => 1 | .upper => 2
def PromptClass.ofCode : Nat → Option PromptClass
  | 0 => some .standard | 1 => some .accessible | 2 => some .priority | 3 => some .group | _ => none
def PromptClass.code : PromptClass → Nat
  | .standard => 0 | .accessible => 1 | .priority => 2 | .group => 3
def Bank.ofCode : Nat → Option Bank
  | 0 => some .a | 1 => some .b | _ => none
def Bank.code : Bank → Nat
  | .a => 0 | .b => 1
def Pattern.ofCode : Nat → Option Pattern
  | 0 => some .p7 | 1 => some .p15 | 2 => some .alt | _ => none
def Pattern.code : Pattern → Nat
  | .p7 => 0 | .p15 => 1 | .alt => 2
def Window.ofCode : Nat → Option Window
  | 0 => some .w256 | 1 => some .w1024 | 2 => some .w4096 | 3 => some .w65536 | 4 => some .untimed | _ => none
def Window.code : Window → Nat
  | .w256 => 0 | .w1024 => 1 | .w4096 => 2 | .w65536 => 3 | .untimed => 4
/-- The number of frames after which a run is complete, or none for UNTIMED (R149). -/
def Window.frames : Window → Option Nat
  | .w256 => some 256 | .w1024 => some 1024 | .w4096 => some 4096 | .w65536 => some 65536 | .untimed => none
def Phase.code : Phase → Nat
  | .a => 0 | .b => 1
def Blink.ofCode : Nat → Option Blink
  | 0 => some (.ct 0) | 1 => some (.ct 1) | 2 => some (.ct 2) | 3 => some (.ct 3) | 4 => some .steady | _ => none
def Blink.code : Blink → Nat
  | .ct t => t.val | .steady => 4
def PanelKind.ofCode : Nat → Option PanelKind
  | 0 => some .carIndicator | 1 => some .lantern | 2 => some .kioskScreen | 3 => some .overviewBoard
  | 4 => some .noticeBoard | _ => none
def PanelKind.code : PanelKind → Nat
  | .carIndicator => 0 | .lantern => 1 | .kioskScreen => 2 | .overviewBoard => 3 | .noticeBoard => 4
def ContentKind.code : ContentKind → Nat
  | .off => 0 | .blank => 1 | .text => 2 | .car => 3 | .lantern => 4 | .kiosk => 5 | .overview => 6 | .notice => 7
def NoticeClass.code : NoticeClass → Nat
  | .evacuation => 0 | .recall => 1 | .closure => 2 | .advisory => 3
def Activity.code : Activity → Nat
  | .idleFill => 0 | .sendingSequence => 1 | .awaitingAck => 2 | .sendingPhase => 3 | .exercise => 4
def LanternState.code : LanternState → Nat
  | .dark => 1 | .announcing => 2 | .arrived => 3 | .closing => 4
def ExState.code : ExState → Nat
  | .idle => 0 | .running => 1 | .done => 2 | .aborted => 3
def EndCause.code : EndCause → Nat
  | .none => 0 | .window => 1 | .stop => 2 | .urgent => 3 | .panelDisabled => 4

/-- A floor or NONE as a byte (R189). -/
def floorByte : Option FloorIx → Byte
  | some f => byteOf f.val
  | none => 255

/-! ### Frame kinds, targets, results (R185, R188) -/

def kindCarState : Byte := 0x01
def kindAssign : Byte := 0x02
def kindCancel : Byte := 0x03
def kindNotice : Byte := 0x04
def kindCadenceSync : Byte := 0x05
def kindTableWrite : Byte := 0x20
def kindTableContinue : Byte := 0x21
def kindTableRead : Byte := 0x22
def kindBankSelect : Byte := 0x23
def kindStateRead : Byte := 0x24
def kindCounterRead : Byte := 0x25
def kindAlertMask : Byte := 0x26
def kindAlertClear : Byte := 0x27
def kindExerciseStart : Byte := 0x28
def kindExerciseStop : Byte := 0x29
def kindNodeReset : Byte := 0x2A
def kindAddressSet : Byte := 0x2B
def kindReply : Byte := 0x40
def kindAlert : Byte := 0x41

/-- The result codes of a REPLY (R188). -/
inductive Result where
  | accepted | unknownRequest | badTable | badRange | badLength | badValue | noContinuation | entryCheck | busy
deriving DecidableEq, Repr

def Result.code : Result → Nat
  | .accepted => 0 | .unknownRequest => 1 | .badTable => 2 | .badRange => 3 | .badLength => 4 | .badValue => 5
  | .noContinuation => 6 | .entryCheck => 7 | .busy => 8

/-- The target byte 63, all nodes, and 64, operational (R163). -/
def targetAll : Byte := 63
def targetOperational : Byte := 64

/-- The target byte of a request (R163). -/
def Dest.byte (s : State) : Dest → Byte
  | .own => byteOf s.mgmt.address
  | .all => targetAll

/-- What becomes of a frame with this target at this node (R163). -/
def targetOf (s : State) (t : Byte) : Target :=
  if t.toNat ≤ 62 then (if t.toNat = s.mgmt.address then .own else .other)
  else if t = targetAll then .all
  else if t = targetOperational then .operational
  else .bad

/-- Only a frame to this node is consumed; every other frame is forwarded on C (R163). -/
def Target.forwarded : Target → Bool
  | .own => false
  | _ => true

/-! ### Operational payloads (R186) -/

/-- The fields of a CAR STATE frame as received, its codes decoded. -/
structure CarReport where
  car : CarIx
  position : Nat
  velocity : Int
  entrance : Entrance
  mode : Mode
  direction : Dir
  nextStop : Option FloorIx
deriving DecidableEq, Repr

/-- A CAR STATE payload, or none where R7 calls it malformed for its length, car or codes. A next stop of 160 to 255 is NONE
(R8). -/
def parseCarState : List Byte → Option CarReport
  | [car, p2, p1, p0, v1, v0, ent, mode, dir, next] => do
    let car ← indexOf 24 car.toNat
    let ent ← Entrance.ofCode ent.toNat
    let mode ← Mode.ofCode mode.toNat
    let dir ← Dir.ofCode dir.toNat
    pure { car := car, position := natOfBytes [p2, p1, p0], velocity := int16OfBytes v1 v0, entrance := ent, mode := mode
           direction := dir, nextStop := indexOf 160 next.toNat }
  | _ => none

/-- The fields of an ASSIGN frame. -/
structure Assignment where
  kiosk : KioskIx
  ticket : BitVec 16
  destination : FloorIx
  car : CarIx
  deck : PromptDeck
  cls : PromptClass
deriving DecidableEq, Repr

/-- An ASSIGN payload, or none where R50 calls it malformed for its length, indices or codes. -/
def parseAssign : List Byte → Option Assignment
  | [k, t1, t0, dest, car, deck, cls] => do
    let k ← indexOf 32 k.toNat
    let dest ← indexOf 160 dest.toNat
    let car ← indexOf 24 car.toNat
    let deck ← PromptDeck.ofCode deck.toNat
    let cls ← PromptClass.ofCode cls.toNat
    pure { kiosk := k, ticket := t1 ++ t0, destination := dest, car := car, deck := deck, cls := cls }
  | _ => none

/-- A CANCEL payload, or none where R55 calls it malformed. -/
def parseCancel : List Byte → Option (KioskIx × BitVec 16)
  | [k, t1, t0] => (indexOf 32 k.toNat).map fun k => (k, t1 ++ t0)
  | _ => none

/-- A NOTICE payload, or none where R72 calls it malformed for its length, index or action; `true` is on. -/
def parseNotice : List Byte → Option (NoticeIx × Bool)
  | [n, action] =>
    match indexOf 16 n.toNat, action.toNat with
    | some n, 0 => some (n, false)
    | some n, 1 => some (n, true)
    | _, _ => none
  | _ => none

end Sys2Proof.Machine
end

