-- ==== Sys2Proof/Machine/Entries.lean ====
section
/-! DEFINITION. The table entries: their bytes (R190, R192), how a stored field is brought into range (R172, R191), and the
bytes an entry reads back as (R177). -/

namespace Sys2Proof.Machine

/-- Bytes of an entry, by table id (R190). -/
def entrySize (t : Fin 11) : Nat := [32, 8, 16, 20, 4, 4, 8, 8, 20, 4, 6].getD t.val 0
/-- Entries of a table, by table id (R190). -/
def entryCount (t : Fin 11) : Nat := [1, 160, 24, 24, 32, 120, 120, 120, 64, 16, 4].getD t.val 0

/-! ### Bringing a field into range: the stored value, and how many fields were changed (R172) -/

/-- A value and the number of fields changed to give it. -/
abbrev Clamped (α : Type) := α × Nat

/-- A numeric field: the nearest limit of its range. A 0 outside the range is stored as 1 where 1 is the least value (R172). -/
def clampTo (lo hi v : Nat) : Clamped Nat :=
  if v < lo then (lo, 1) else if hi < v then (hi, 1) else (v, 0)

/-- A numeric field that is an index: the nearest index. -/
def clampFin (n v : Nat) (h : 0 < n := by decide) : Clamped (Fin n) :=
  (clampIndex n v h, if v < n then 0 else 1)

/-- An enumerated field: an undefined code is stored as the field's power-on value (R172). -/
def clampCode {α : Type} (powerOn : α) (c : Option α) : Clamped α :=
  match c with
  | some x => (x, 0)
  | none => (powerOn, 1)

/-- A label or text: characters outside 32 to 126 are stored as '?', and the field counts once (R172). -/
def clampText (bs : List Byte) : Clamped (List Byte) :=
  let ok (b : Byte) : Bool := 32 ≤ b.toNat && b.toNat ≤ 126
  (bs.map fun b => if ok b then b else 63#8, if bs.all ok then 0 else 1)

/-- Byte `i` of an entry, as a number. -/
def byteAt (bs : List Byte) (i : Nat) : Nat := (bs.getD i 0).toNat
/-- Bytes `i` and `i + 1` of an entry, most significant first. -/
def wordAt (bs : List Byte) (i : Nat) : Nat := byteAt bs i * 256 + byteAt bs (i + 1)
/-- A bit of a byte of an entry. -/
def bitAt (bs : List Byte) (i bit : Nat) : Bool := (bs.getD i 0).getLsbD bit
/-- The zone in bits 4 to 7 of the first byte. -/
def zoneAt (bs : List Byte) : Zone := clampIndex 16 (byteAt bs 0 / 16)

/-! ### Reading an entry from its bytes -/

def Profile.ofBytes (bs : List Byte) : Clamped Profile :=
  let vmin := clampTo 1 500 (wordAt bs 0)
  let lead := clampTo 0 2000 (wordAt bs 2)
  let cap := clampTo 1 4000 (wordAt bs 4)
  let hyst := clampTo 1 500 (wordAt bs 6)
  let window := clampTo 1 100 (byteAt bs 8)
  let stale := clampTo 1 255 (byteAt bs 9)
  let hold := clampTo 1 255 (byteAt bs 10)
  let wd := clampTo 1 255 (byteAt bs 11)
  let marker := clampTo 1 255 (byteAt bs 12)
  let loss := clampTo 1 255 (byteAt bs 13)
  let keep := clampTo 1 255 (byteAt bs 14)
  let retry := clampTo 1 255 (byteAt bs 15)
  let asrt := clampTo 1 15 (byteAt bs 16)
  let clear := clampTo 1 15 (byteAt bs 17)
  let lt := clampFin 4 (byteAt bs 18)
  let mt := clampFin 4 (byteAt bs 19)
  let fire := clampFin 64 (byteAt bs 20)
  let oos := clampFin 64 (byteAt bs 21)
  let insp := clampFin 64 (byteAt bs 22)
  let ind := clampFin 64 (byteAt bs 23)
  let wdt := clampFin 64 (byteAt bs 24)
  ({ vmin := vmin.1, lead := lead.1, leadCap := cap.1, hysteresis := hyst.1, window := window.1, staleTime := stale.1
     promptHold := hold.1, withdrawnHold := wd.1, markerTime := marker.1, lossTimeout := loss.1, keepAlive := keep.1
     retry := retry.1, assertThreshold := asrt.1, clearThreshold := clear.1, lanternTimer := lt.1, markerTimer := mt.1
     fireText := fire.1, outOfServiceText := oos.1, inspectionText := insp.1, independentText := ind.1
     withdrawnText := wdt.1 },
   vmin.2 + lead.2 + cap.2 + hyst.2 + window.2 + stale.2 + hold.2 + wd.2 + marker.2 + loss.2 + keep.2 + retry.2 + asrt.2
     + clear.2 + lt.2 + mt.2 + fire.2 + oos.2 + insp.2 + ind.2 + wdt.2)

def FloorEntry.ofBytes (bs : List Byte) : Clamped FloorEntry :=
  let level := clampTo 0 Config.maxPosition (natOfBytes [bs.getD 1 0, bs.getD 2 0, bs.getD 3 0])
  let label := clampText ((bs.drop 4).take 4)
  ({ defined := bitAt bs 0 0, lobby := bitAt bs 0 1, zone := zoneAt bs, level := level.1, label := label.1 },
   level.2 + label.2)

def Express.ofCode : Nat → Option Express
  | 0 => some .countThrough | 1 => some .hold | 2 => some .blank | _ => none
def Express.code : Express → Nat
  | .countThrough => 0 | .hold => 1 | .blank => 2
def StalePolicy.ofCode : Nat → Option StalePolicy
  | 0 => some .holdLast | 1 => some .dashes | 2 => some .blank | _ => none
def StalePolicy.code : StalePolicy → Nat
  | .holdLast => 0 | .dashes => 1 | .blank => 2
def SourceKind.ofCode : Nat → Option SourceKind
  | 0 => some .off | 1 => some .carView | 2 => some .lantern | 3 => some .kioskView | 4 => some .overview
  | 5 => some .fixedText | _ => none
def SourceKind.code : SourceKind → Nat
  | .off => 0 | .carView => 1 | .lantern => 2 | .kioskView => 3 | .overview => 4 | .fixedText => 5
def LossAction.ofCode : Nat → Option LossAction
  | 0 => some .hold | 1 => some .blank | 2 => some .fallback | _ => none
def LossAction.code : LossAction → Nat
  | .hold => 0 | .blank => 1 | .fallback => 2
def CadenceMode.ofCode : Nat → Option CadenceMode
  | 0 => some .off | 1 => some .single | 2 => some .alternate | _ => none
def CadenceMode.code : CadenceMode → Nat
  | .off => 0 | .single => 1 | .alternate => 2
def Retrigger.ofCode : Nat → Retrigger
  | 1 => .lanternArrival | 2 => .noticeActivation | 3 => .reassignment | _ => .none
def Retrigger.code : Retrigger → Nat
  | .none => 0 | .lanternArrival => 1 | .noticeActivation => 2 | .reassignment => 3

def CarEntry.ofBytes (bs : List Byte) : Clamped CarEntry :=
  let label := clampText ((bs.drop 1).take 2)
  let off := clampTo 0 8000 (wordAt bs 3)
  let lead := clampTo 0 2000 (wordAt bs 5)
  let cap := clampTo 0 4000 (wordAt bs 7)
  let hyst := clampTo 0 500 (wordAt bs 9)
  let window := clampTo 0 100 (byteAt bs 11)
  let express := clampCode .countThrough (Express.ofCode (byteAt bs 12))
  let policy := clampCode .holdLast (StalePolicy.ofCode (byteAt bs 14))
  let lantern := clampTo 0 3 (byteAt bs 15)
  ({ enabled := bitAt bs 0 0, label := label.1, deckOffset := off.1, leadTime := lead.1, leadCap := cap.1
     hysteresis := hyst.1, levelWindow := window.1, express := express.1, staleTime := byteAt bs 13
     stalePolicy := policy.1, lanternLead := lantern.1 },
   label.2 + off.2 + lead.2 + cap.2 + hyst.2 + window.2 + express.2 + policy.2 + lantern.2)

/-- A service map entry: floor f is bit f mod 8 of byte f / 8 (R190). -/
def serviceOfBytes (bs : List Byte) : BitVec 160 :=
  BitVec.ofNat 160 ((bs.take 20).foldr (fun b n => b.toNat + 256 * n) 0)

def KioskEntry.ofBytes (bs : List Byte) : Clamped KioskEntry :=
  let floor := clampFin 160 (byteAt bs 1)
  ({ enabled := bitAt bs 0 0, zone := zoneAt bs, floor := floor.1, hold := byteAt bs 2, withdrawnHold := byteAt bs 3 },
   floor.2)

def PanelEntry.ofBytes (bs : List Byte) : Clamped PanelEntry :=
  let kind := clampCode .carIndicator (PanelKind.ofCode (byteAt bs 1))
  let lines := clampTo 1 8 (byteAt bs 2)
  let columns := clampTo 4 20 (byteAt bs 3)
  ({ enabled := bitAt bs 0 0, zone := zoneAt bs, kind := kind.1, lines := lines.1, columns := columns.1 },
   kind.2 + lines.2 + columns.2)

/-- A route entry; its indices are stored as written (R106), and its deck is one bit, which has no undefined code. -/
def Route.ofBytes (bs : List Byte) : Clamped Route :=
  let kind := clampCode .off (SourceKind.ofCode (byteAt bs 0))
  let count := clampTo 1 8 (byteAt bs 4)
  let blink := clampCode .steady (Blink.ofCode (byteAt bs 5))
  let loss := clampCode .hold (LossAction.ofCode (byteAt bs 6))
  let fallback := clampFin 64 (byteAt bs 7)
  ({ kind := kind.1, a := byteAt bs 1, b := byteAt bs 2, deck := if bitAt bs 3 0 then .upper else .lower
     mirror := bitAt bs 3 1, count := count.1, blink := blink.1, loss := loss.1, fallback := fallback.1 },
   kind.2 + count.2 + blink.2 + loss.2 + fallback.2)

def NoticeClass.ofCode : Nat → NoticeClass
  | 0 => .evacuation | 1 => .recall | 2 => .closure | _ => .advisory

/-- A notice entry: one 32-bit value (R192). The codes 21 to 31 are undefined and stored as code 0. -/
def NoticeEntry.ofBytes (bs : List Byte) : Clamped NoticeEntry :=
  let v : BitVec 32 := BitVec.ofNat 32 (natOfBytes (bs.take 4))
  let code := (v.extractLsb' 27 5).toNat
  let text : TextIx := clampIndex 64 (v.extractLsb' 21 6).toNat
  let kinds := v.extractLsb' 16 5
  let zones := v.extractLsb' 0 16
  if 1 ≤ code ∧ code ≤ 20 then
    let k := code - 1
    ({ enabled := true, cls := NoticeClass.ofCode (k / 5), cadence := (Blink.ofCode (k % 5)).getD .steady
       text := text, kinds := kinds, zones := zones }, 0)
  else
    ({ enabled := false, cls := .evacuation, cadence := .ct 0, text := text, kinds := kinds, zones := zones },
     if code = 0 then 0 else 1)

/-- A cadence entry; a source of CT3 stored for CT3 is stored as BASE and counted (R87), and limits are not clamped. -/
def CadenceEntry.ofBytes (t : TimerIx) (bs : List Byte) : Clamped CadenceEntry :=
  let mode := clampCode .off (CadenceMode.ofCode (byteAt bs 0))
  let ct3 := bitAt bs 1 1
  let self := t = 3 ∧ ct3
  ({ mode := mode.1, oneShot := bitAt bs 1 0, source := if ct3 && t != 3 then .ct3 else .base
     limitA := wordAt bs 2, limitB := wordAt bs 4, retrigger := Retrigger.ofCode (byteAt bs 1 / 16 % 4) },
   mode.2 + if self then 1 else 0)

/-! ### The bytes an entry reads back as; bits not stored read 0 (R177, R191) -/

/-- The first byte of an entry with flags in its low bits and a zone in bits 4 to 7. -/
def zoneByte (flags : List Bool) (z : Zone) : Byte := flagByte flags ||| byteOf (16 * z.val)

def Profile.bytes (e : Profile) : List Byte :=
  bytes2 e.vmin ++ bytes2 e.lead ++ bytes2 e.leadCap ++ bytes2 e.hysteresis
    ++ [e.window, e.staleTime, e.promptHold, e.withdrawnHold, e.markerTime, e.lossTimeout, e.keepAlive, e.retry
        , e.assertThreshold, e.clearThreshold, e.lanternTimer.val, e.markerTimer.val, e.fireText.val
        , e.outOfServiceText.val, e.inspectionText.val, e.independentText.val, e.withdrawnText.val].map byteOf
    ++ List.replicate 7 0

def FloorEntry.bytes (e : FloorEntry) : List Byte :=
  [zoneByte [e.defined, e.lobby] e.zone] ++ bytes3 e.level ++ e.label

def CarEntry.bytes (e : CarEntry) : List Byte :=
  [flagByte [e.enabled]] ++ e.label ++ bytes2 e.deckOffset ++ bytes2 e.leadTime ++ bytes2 e.leadCap ++ bytes2 e.hysteresis
    ++ [e.levelWindow, e.express.code, e.staleTime, e.stalePolicy.code, e.lanternLead].map byteOf

def serviceBytes (m : BitVec 160) : List Byte :=
  (List.range 20).map fun i => byteOf (m.toNat / 256 ^ i)

def KioskEntry.bytes (e : KioskEntry) : List Byte :=
  [zoneByte [e.enabled] e.zone, byteOf e.floor.val, byteOf e.hold, byteOf e.withdrawnHold]

def PanelEntry.bytes (e : PanelEntry) : List Byte :=
  [zoneByte [e.enabled] e.zone, byteOf e.kind.code, byteOf e.lines, byteOf e.columns]

def Route.bytes (e : Route) : List Byte :=
  [byteOf e.kind.code, byteOf e.a, byteOf e.b, flagByte [e.deck == .upper, e.mirror], byteOf e.count, byteOf e.blink.code
  , byteOf e.loss.code, byteOf e.fallback.val]

/-- The notice code of an entry (R192). -/
def NoticeEntry.code (e : NoticeEntry) : Nat := if e.enabled then 5 * e.cls.code + e.cadence.code + 1 else 0

def NoticeEntry.bytes (e : NoticeEntry) : List Byte :=
  bytes4 (e.code * 2 ^ 27 + e.text.val * 2 ^ 21 + e.kinds.toNat * 2 ^ 16 + e.zones.toNat)

def CadenceEntry.bytes (e : CadenceEntry) : List Byte :=
  [byteOf e.mode.code, flagByte [e.oneShot, e.source == .ct3] ||| byteOf (16 * e.retrigger.code)]
    ++ bytes2 e.limitA ++ bytes2 e.limitB

/-- The bytes of entry `i` of a table, as stored (R177); nothing where the table has no such entry. -/
def Tables.entryBytes (ts : Tables) (t : Fin 11) (i : Nat) : List Byte :=
  match t with
  | 0 => if i = 0 then ts.profile.bytes else []
  | 1 => (ts.floors[i]?.map FloorEntry.bytes).getD []
  | 2 => (ts.cars[i]?.map CarEntry.bytes).getD []
  | 3 => (ts.service[i]?.map serviceBytes).getD []
  | 4 => (ts.kiosks[i]?.map KioskEntry.bytes).getD []
  | 5 => (ts.panels[i]?.map PanelEntry.bytes).getD []
  | 6 => (ts.routesA[i]?.map Route.bytes).getD []
  | 7 => (ts.routesB[i]?.map Route.bytes).getD []
  | 8 => (ts.texts[i]?).getD []
  | 9 => (ts.notices[i]?.map NoticeEntry.bytes).getD []
  | 10 => (ts.cadence[i]?.map CadenceEntry.bytes).getD []

/-! ### Storing one entry (R172) -/

/-- The bytes of an entry, as many as its table's entries have. -/
def entryImage (t : Fin 11) (bs : List Byte) : List Byte := (bs ++ List.replicate (entrySize t) 0).take (entrySize t)

/-- The tables after an entry's bytes are stored at index `i`, and how many fields were changed to bring them into range. -/
def Tables.store (ts : Tables) (t : Fin 11) (i : Nat) (bytes : List Byte) : Clamped Tables :=
  let bs := entryImage t bytes
  match t with
  | 0 => let e := Profile.ofBytes bs; ({ ts with profile := e.1 }, e.2)
  | 1 => let e := FloorEntry.ofBytes bs; ({ ts with floors := ts.floors.setIfInBounds i e.1 }, e.2)
  | 2 => let e := CarEntry.ofBytes bs; ({ ts with cars := ts.cars.setIfInBounds i e.1 }, e.2)
  | 3 => ({ ts with service := ts.service.setIfInBounds i (serviceOfBytes bs) }, 0)
  | 4 => let e := KioskEntry.ofBytes bs; ({ ts with kiosks := ts.kiosks.setIfInBounds i e.1 }, e.2)
  | 5 => let e := PanelEntry.ofBytes bs; ({ ts with panels := ts.panels.setIfInBounds i e.1 }, e.2)
  | 6 => let e := Route.ofBytes bs; ({ ts with routesA := ts.routesA.setIfInBounds i e.1 }, e.2)
  | 7 => let e := Route.ofBytes bs; ({ ts with routesB := ts.routesB.setIfInBounds i e.1 }, e.2)
  | 8 => let e := clampText bs; ({ ts with texts := ts.texts.setIfInBounds i e.1 }, e.2)
  | 9 => let e := NoticeEntry.ofBytes bs; ({ ts with notices := ts.notices.setIfInBounds i e.1 }, e.2)
  | 10 =>
    let e := CadenceEntry.ofBytes (clampIndex 4 i) bs
    ({ ts with cadence := ts.cadence.setIfInBounds i e.1 }, e.2)

end Sys2Proof.Machine
end

