-- ==== Sys2Proof/Machine/Check.lean ====
section
/-! DEFINITION. The two checks of R193 and the byte images of the frames the part sends (R185, R188, R194). -/

namespace Sys2Proof.Machine

/-- One step of a check register: shift out the highest bit and fold the polynomial in where it was set (R193). -/
def crcShift {w : Nat} (poly : BitVec w) (r : BitVec w) : BitVec w :=
  if r.msb then (r <<< 1) ^^^ poly else r <<< 1

/-- Eight steps. -/
def crcShift8 {w : Nat} (poly : BitVec w) (r : BitVec w) : BitVec w :=
  (List.range 8).foldl (fun r _ => crcShift poly r) r

/-- CRC-16: polynomial 1021h from FFFFh, most significant bit of each byte first (R193). -/
def crc16 (bs : List Byte) : BitVec 16 :=
  bs.foldl (fun r b => crcShift8 0x1021#16 (r ^^^ (b ++ 0x00#8 : BitVec 16))) 0xFFFF#16

/-- CRC-8: polynomial 07h from 00h (R193). -/
def crc8 (bs : List Byte) : Byte :=
  bs.foldl (fun r b => crcShift8 0x07#8 (r ^^^ b)) 0x00#8

/-- The two check bytes, high byte first (R193). -/
def crcBytes (bs : List Byte) : List Byte := bytes2 (crc16 bs).toNat

/-- The data bytes of a frame: header and payload followed by their check. -/
def withCrc (body : List Byte) : List Byte := body ++ crcBytes body

/-- Header and payload of received data characters: all but the last two. -/
def frameBody (data : List Byte) : List Byte := data.take (data.length - 2)

/-- Whether the last two data characters are the CRC-16 of those before them (R162, R193). -/
def crcPasses (data : List Byte) : Bool :=
  2 ≤ data.length && data.drop (data.length - 2) == crcBytes (frameBody data)

/-- The data bytes of a REPLY or ALERT as it goes up (R185, R188). -/
def UpFrame.bytes (f : UpFrame) : List Byte := withCrc ([f.kind, f.source, f.tag] ++ f.payload)

/-! ### Panel-link frames (R194) -/

/-- Blink and arrow of a LINE frame, with its text. -/
def lineFrame (addr : Nat) (number : Nat) (ln : Line) : List Byte :=
  withCrc ([0x02, byteOf addr, byteOf number, byteOf ln.arrow.code, byteOf ln.blink.code] ++ ln.text)

/-- The frames of a refresh sequence, in order: the REFRESH HEAD and one LINE for each line (R130, R194). -/
def Sequence.frames (q : Sequence) : List (List Byte) :=
  let addr := (panelAddr q.panel).val
  withCrc [0x01, byteOf addr, q.version, byteOf q.kind.code, byteOf q.lines.length, byteOf q.chime.code]
    :: (q.lines.zipIdx 1).map fun (ln, i) => lineFrame addr i ln

/-- The PHASE frame carrying these phases and cycle counts (R135, R194). -/
def phaseFrame (ps : List (Phase × Byte)) : List Byte :=
  withCrc ([0x03, byteOf Config.broadcast] ++ ps.flatMap fun (ph, n) => [byteOf ph.code, n])

/-- The EXERCISE frame to an address (R153, R194). -/
def exerciseFrame (addr : Nat) (pattern : List Byte) : List Byte := withCrc ([0x04, byteOf addr] ++ pattern)

/-- The ACK a panel returns (R128, R194), and the ECHO. -/
def ackFrame (addr version kind status : Byte) : List Byte := withCrc [0x08, addr, version, kind, status]
def echoFrame (addr : Byte) (bytes : List Byte) : List Byte := withCrc ([0x09, addr] ++ bytes)

end Sys2Proof.Machine
end

