-- ==== Sys2Proof/Machine/Flags.lean ====
section
/-! DEFINITION. The flags the spec computes from the state: dirtiness, scheduler classes, link boundaries, timer references,
notice coverage, and the moving test. -/

namespace Sys2Proof.Machine

/-! ### Content and scheduling (R112, R137) -/

/-- A panel is dirty while its version differs from its acknowledged version (R112). -/
def ContentRec.dirty (r : ContentRec) : Bool := r.acked != some r.version

/-- Class 1: enabled, not faulted, dirty, and urgent differs from acknowledged urgent (R137). -/
def State.inUrgent (s : State) (p : PanelIx) : Bool :=
  (s.panelEntry p).enabled && !(s.healthOf p).faulted && (s.content p).dirty
    && ((s.content p).content.urgent != (s.content p).ackedUrgent)

/-- Class 3: enabled, not faulted, dirty, not in class 1 (R137). -/
def State.inOrdinary (s : State) (p : PanelIx) : Bool :=
  (s.panelEntry p).enabled && !(s.healthOf p).faulted && (s.content p).dirty && !s.inUrgent p

/-- Class 4: enabled, not faulted, clean, keep-alive countdown 0 (R137, R139). -/
def State.inKeepAlive (s : State) (p : PanelIx) : Bool :=
  (s.panelEntry p).enabled && !(s.healthOf p).faulted && !(s.content p).dirty && (s.healthOf p).keepAlive == 0

/-- Class 5: enabled, faulted, retry countdown 0 (R137, R140). -/
def State.inRetry (s : State) (p : PanelIx) : Bool :=
  (s.panelEntry p).enabled && (s.healthOf p).faulted && (s.healthOf p).retry == 0

/-- Membership of a panel in a class that sends refresh sequences (R137). -/
def State.inClass (s : State) (k : WorkClass) (p : PanelIx) : Bool :=
  match k with
  | .urgent => s.inUrgent p
  | .ordinary => s.inOrdinary p
  | .keepAlive => s.inKeepAlive p
  | .retry => s.inRetry p

/-- Whether class 1 of a link holds any panel (R137, R151). -/
def State.urgentWork (s : State) (l : LinkIx) : Bool := (linkPanels l).any s.inUrgent

/-- Adoption pending: the selected bank differs from the link's bank in use (R108). -/
def State.adoptionPending (s : State) (l : LinkIx) : Bool := (s.link l).bank != s.mgmt.selected

/-- Whether an exercise frame is in flight on the link (R108, R153). -/
def State.exerciseInFlight (s : State) (l : LinkIx) : Bool :=
  s.exercise.state == .running && s.exercise.link == l && s.exercise.flight.isSome

/-- A link is at a sequence boundary while no refresh sequence and no exercise frame is in flight on it (R108). -/
def State.atBoundary (s : State) (l : LinkIx) : Bool :=
  (s.link l).sequence.isNone && !s.exerciseInFlight l

/-- The line is free for a pick: filling with IDLE, no ABORT going out, no exercise (R136, R148). -/
def Link.free (k : Link) : Bool := k.activity == .idleFill && !k.aborting

/-- The line carries a PHASE frame or an ABORT: an exercise frame waits for its end (R151, log 18). -/
def Link.occupied (k : Link) : Bool := k.phaseOnLine.isSome || k.aborting

/-! ### Timer references (R98, R99) -/

/-- A list of lines references a timer when one of them names it as its blink. -/
def linesReference (ls : List Line) (t : TimerIx) : Bool := ls.any fun ln => ln.blink == .ct t

/-- Whether an enabled panel's content record references the timer: the record holds the lines of its last composition. -/
def State.panelReferences (s : State) (t : TimerIx) (p : PanelIx) : Bool :=
  (s.panelEntry p).enabled && linesReference (s.content p).content.lines t

/-- Whether some enabled panel's content on the link references the timer (R99). -/
def State.linkReferences (s : State) (l : LinkIx) (t : TimerIx) : Bool := (linkPanels l).any (s.panelReferences t)

/-! ### Notices (R75, R76, R79) -/

/-- EVACUATION and RECALL: the classes that set urgent, flush kiosks and refuse ASSIGN frames (R77, R62). -/
def NoticeClass.grave : NoticeClass → Bool
  | .evacuation | .recall => true
  | .closure | .advisory => false

/-- An entry's coverage of a panel entry: zone and kind both in its masks (R76). -/
def NoticeEntry.coversPanel (e : NoticeEntry) (pe : PanelEntry) : Bool :=
  e.zones.getLsbD pe.zone.val && e.kinds.getLsbD pe.kind.code

/-- The active notices, highest rank first: by class, then by index (R75). -/
def State.ranked (s : State) : List NoticeIx :=
  [NoticeClass.evacuation, .recall, .closure, .advisory].flatMap fun c =>
    allNotices.filter fun n => s.isActive n && (s.noticeEntry n).cls == c

/-- Whether an active notice covers a panel (R76). -/
def State.covers (s : State) (n : NoticeIx) (p : PanelIx) : Bool :=
  s.isActive n && (s.noticeEntry n).coversPanel (s.panelEntry p)

/-- The replacing notice of a panel: the highest-ranked covering notice of class EVACUATION, RECALL or CLOSURE (R75). -/
def State.replacing (s : State) (p : PanelIx) : Option NoticeIx :=
  s.ranked.find? fun n => (s.noticeEntry n).cls != .advisory && s.covers n p

/-- The advisory of a panel: the covering ADVISORY notice of lowest index (R75). -/
def State.advisory (s : State) (p : PanelIx) : Option NoticeIx :=
  allNotices.find? fun n => (s.noticeEntry n).cls == .advisory && s.covers n p

/-- Whether an active EVACUATION or RECALL notice covers the zone: kiosk coverage (R76, R85). -/
def State.zoneClosed (s : State) (z : Zone) : Bool :=
  allNotices.any fun n => s.isActive n && (s.noticeEntry n).cls.grave && (s.noticeEntry n).zones.getLsbD z.val

/-- Whether the kiosk's zone is so covered (R51). -/
def State.kioskClosed (s : State) (k : KioskIx) : Bool := s.zoneClosed (s.kioskEntry k).zone

/-! ### Cars (R5, R10, R11) -/

/-- The car is moving: its speed is at least the moving threshold; a velocity of 0 is always stopped (R11). -/
def movingAt (pr : Profile) (v : Int) : Bool := v != 0 && pr.vmin ≤ v.natAbs
def State.moving (s : State) (c : CarIx) : Bool := movingAt s.profile (s.car c).velocity

/-- Whether the car has an upper deck of its own: its deck offset is not 0 (R5). -/
def State.doubleDeck (s : State) (c : CarIx) : Bool := (s.carEntry c).deckOffset != 0

/-- The deck fields a reader is given: an UPPER reader of a single-deck car reads the lower deck (R5). -/
def State.deckRec (s : State) (c : CarIx) (d : Deck) : DeckRec :=
  if d = .upper ∧ s.doubleDeck c then (s.car c).upper else (s.car c).lower

/-- The deck position Pd (R10). -/
def State.deckPosition (s : State) (c : CarIx) (d : Deck) : Nat :=
  if d = .upper ∧ s.doubleDeck c then min ((s.car c).position + (s.carEntry c).deckOffset) Config.maxPosition
  else (s.car c).position

/-- A field that takes 0 to mean the profile's default (00 section 4.5). -/
def orDefault (v dflt : Nat) : Nat := if v = 0 then dflt else v

def State.effLead (s : State) (c : CarIx) : Nat := orDefault (s.carEntry c).leadTime s.profile.lead
def State.effCap (s : State) (c : CarIx) : Nat := orDefault (s.carEntry c).leadCap s.profile.leadCap
def State.effHysteresis (s : State) (c : CarIx) : Nat := orDefault (s.carEntry c).hysteresis s.profile.hysteresis
def State.effWindow (s : State) (c : CarIx) : Nat := orDefault (s.carEntry c).levelWindow s.profile.window
def State.effStale (s : State) (c : CarIx) : Nat := orDefault (s.carEntry c).staleTime s.profile.staleTime
def State.effHold (s : State) (k : KioskIx) : Nat := orDefault (s.kioskEntry k).hold s.profile.promptHold
def State.effWithdrawnHold (s : State) (k : KioskIx) : Nat := orDefault (s.kioskEntry k).withdrawnHold s.profile.withdrawnHold

/-! ### Routes (R106, R110) -/

/-- The route entry of the bank in use on the panel's own link (R109). -/
def State.routeInUse (s : State) (p : PanelIx) : Route :=
  match (s.link (panelLink p)).bank with
  | .a => s.tables.routesA[p]
  | .b => s.tables.routesB[p]

/-- A route suits a panel kind when its source is allowed for the kind and its indices are in range (R110). -/
def Route.suits (r : Route) (k : PanelKind) : Bool :=
  match r.kind with
  | .off => true
  | .carView => (k == .carIndicator || k == .noticeBoard) && r.a < 24
  | .lantern => k == .lantern && r.a < 160 && r.b < 24
  | .kioskView => k == .kioskScreen && r.a < 32
  | .overview => k == .overviewBoard && r.a < 24
  | .fixedText => r.a < 64

end Sys2Proof.Machine
end

