-- ==== Sys2Proof/Machine/Tracker.lean ====
section
/-! DEFINITION. The car tracker's decisions about one car: the floor decision (R10 to R18), the entrance transitions (R25 to
R27), and the label a deck presents (R19, R20). -/

namespace Sys2Proof.Machine

/-! ### Candidates and the nearest floor -/

/-- A floor a deck of the car may show: defined and, under HOLD, served (R12). -/
def State.candidate (s : State) (c : CarIx) (f : FloorIx) : Bool :=
  (s.floorEntry f).defined && ((s.carEntry c).express != .hold || s.serves c f)

/-- The level of a floor. -/
def State.level (s : State) (f : FloorIx) : Nat := (s.floorEntry f).level

/-- The distance between two levels. -/
def dist (a b : Nat) : Nat := (a - b) + (b - a)

/-- One floor considered in the search for the nearest: it replaces the best so far when it is nearer, or as near and the tie
goes to the higher index. -/
def nearer (cand : FloorIx → Bool) (level : FloorIx → Nat) (x : Nat) (tieHigh : Bool) (best : Option FloorIx) (f : FloorIx) :
    Option FloorIx :=
  if cand f then
    match best with
    | none => some f
    | some g =>
      if dist x (level f) < dist x (level g) || (tieHigh && dist x (level f) == dist x (level g)) then some f else some g
  else best

/-- The candidate with the level nearest to `x`; ties go to the highest index if `tieHigh`, else to the lowest (R13, R15). -/
def nearest (cand : FloorIx → Bool) (level : FloorIx → Nat) (x : Nat) (tieHigh : Bool) : Option FloorIx :=
  allFloors.foldl (nearer cand level x tieHigh) none

/-! ### The floor decision (R10 to R18) -/

/-- Whether the deck at position `pd` lies within the level window of floor `f` (R13, R18). -/
def State.withinWindow (s : State) (c : CarIx) (pd : Nat) (f : FloorIx) : Bool := dist pd (s.level f) ≤ s.effWindow c

/-- A snap (R13), and the empty candidate set (R12): displayed floor and at-floor flag. -/
def State.snap (s : State) (c : CarIx) (d : Deck) : Option FloorIx × Bool :=
  let pd := s.deckPosition c d
  match nearest (s.candidate c) s.level pd false with
  | none => (none, false)
  | some f => (some f, s.withinWindow c pd f)

/-- The lead of a moving car (R14). -/
def State.lead (s : State) (c : CarIx) : Nat :=
  if s.moving c then min ((s.car c).velocity.natAbs * s.effLead c / 1000) (s.effCap c) else 0

/-- The expected position Pe, clamped to the range of positions (R14). -/
def State.expected (s : State) (c : CarIx) (d : Deck) : Nat :=
  let pd := s.deckPosition c d
  if s.moving c then
    if 0 < (s.car c).velocity then min (pd + s.lead c) Config.maxPosition else pd - s.lead c
  else pd

/-- The next candidate after `d` in index order toward higher or lower floors (R17). -/
def nextCandidate (cand : FloorIx → Bool) (d : FloorIx) (up : Bool) : Option FloorIx :=
  if up then allFloors.find? fun f => decide (d < f) && cand f
  else allFloors.reverse.find? fun f => decide (f < d) && cand f

/-- Stepping from `d` toward `goal` one candidate at a time, each step passing the midpoint by the hysteresis (R17). -/
def stepToward (cand : FloorIx → Bool) (level : FloorIx → Nat) (pe hyst : Nat) (goal : FloorIx) : Nat → FloorIx → FloorIx
  | 0, d => d
  | n + 1, d =>
    if d = goal then d
    else
      let up := decide (d < goal)
      match nextCandidate cand d up with
      | none => d
      | some e =>
        let m : Int := ((level d + level e) / 2 : Nat)
        if (if up then m + (hyst : Int) ≤ (pe : Int) else (pe : Int) ≤ m - (hyst : Int)) then
          stepToward cand level pe hyst goal n e
        else d

/-- A tracking decision from displayed floor `d` (R14 to R18). -/
def State.track (s : State) (c : CarIx) (k : Deck) (d : FloorIx) : Option FloorIx × Bool :=
  let v := (s.car c).velocity
  let pe := s.expected c k
  match nearest (s.candidate c) s.level pe (decide (0 < v)) with
  | none => (none, false)
  | some goal =>
    if s.moving c && ((decide (goal < d) && decide (0 < v)) || (decide (d < goal) && decide (v < 0))) then (some d, false)
    else
      let d' := stepToward (s.candidate c) s.level pe (s.effHysteresis c) goal 160 d
      (some d', !s.moving c && s.withinWindow c (s.deckPosition c k) d')

/-- Whether a decision made from a frame is a snap for the deck (R11). -/
def State.snapsOnFrame (s : State) (c : CarIx) (k : Deck) : Bool :=
  (s.car c).snapPending
    || (!s.moving c && ((s.car c).entrance == .opening || (s.car c).entrance == .open))
    || (match (s.deckRec c k).floor with
        | none => true
        | some d => !s.candidate c d)

/-- The floor decision of a deck on a frame (R11, R12). -/
def State.decideFloor (s : State) (c : CarIx) (k : Deck) : Option FloorIx × Bool :=
  match (s.deckRec c k).floor, s.snapsOnFrame c k with
  | some d, false => s.track c k d
  | _, _ => s.snap c k

/-- Give a deck record a decision. -/
def DeckRec.decided (r : DeckRec) (x : Option FloorIx × Bool) : DeckRec := { r with floor := x.1, atFloor := x.2 }

/-- Apply a decision to the lower or single deck, and to the upper deck of a double-deck car (R9 step 4, R28). -/
def State.decideDecks (s : State) (c : CarIx) (f : State → Deck → Option FloorIx × Bool) : CarRec :=
  let r := s.car c
  let r1 := { r with lower := r.lower.decided (f s .lower) }
  if s.doubleDeck c then { r1 with upper := r.upper.decided (f s .upper) } else r1

/-! ### Entrances (R25 to R27) -/

/-- An entrance-closed event (R26). -/
structure ClosedEvent where
  car : CarIx
  deck : PromptDeck
  floor : FloorIx
  dir : Dir
deriving DecidableEq, Repr

/-- The deck record of one deck. -/
def CarRec.deck (r : CarRec) : Deck → DeckRec
  | .lower => r.lower
  | .upper => r.upper

/-- Replace the deck record of one deck. -/
def CarRec.setDeck (r : CarRec) (k : Deck) (x : DeckRec) : CarRec :=
  match k with
  | .lower => { r with lower := x }
  | .upper => { r with upper := x }

/-- Clear a deck's entrance-open floor after its event; with both decks clear the recorded direction is NONE (R26). -/
def CarRec.clearOpen (r : CarRec) (k : Deck) : CarRec :=
  let r := r.setDeck k { r.deck k with openFloor := none }
  if r.lower.openFloor.isNone && r.upper.openFloor.isNone then { r with recDir := .none } else r

/-- R25 for one deck: an entrance that becomes OPEN while the deck is at-floor is recorded at D; an event is raised first for
another floor the deck held, with the recorded direction as it then stands: for the upper deck, the frame's where the lower has
just opened (log 10). -/
def entranceRecords (c : CarIx) (ev : PromptDeck) (before : Entrance) (k : Deck) (r : CarRec) : CarRec × List ClosedEvent :=
  let d := r.deck k
  let opened : CarRec := { r.setDeck k { d with openFloor := d.floor } with recDir := r.direction }
  if r.entrance == .open && before != .open && d.atFloor && d.floor.isSome then
    match d.openFloor with
    | none => (opened, [])
    | some g => if d.floor = some g then (r, []) else (opened, [⟨c, ev, g, r.recDir⟩])
  else (r, [])

/-- While a deck holds an entrance-open floor, a frame reporting UP or DOWN sets the recorded direction (R25). -/
def recordDirection (k : Deck) (r : CarRec) : CarRec :=
  if (r.deck k).openFloor.isSome && r.direction != .none then { r with recDir := r.direction } else r

/-- R26 and R27 for one deck: a held floor raises the event when the entrance becomes CLOSED, or when the car is moving and
the entrance is anything but CLOSED. -/
def entranceCloses (c : CarIx) (ev : PromptDeck) (before : Entrance) (moving : Bool) (k : Deck) (r : CarRec) :
    CarRec × List ClosedEvent :=
  match (r.deck k).openFloor with
  | none => (r, [])
  | some f =>
    if (r.entrance == .closed && before != .closed) || (moving && r.entrance != .closed) then
      (r.clearOpen k, [⟨c, ev, f, r.recDir⟩])
    else (r, [])

/-- The entrance transitions of one deck (R25, then R26 and R27). -/
def entranceDeck (c : CarIx) (ev : PromptDeck) (before : Entrance) (moving : Bool) (k : Deck) (r : CarRec) :
    CarRec × List ClosedEvent :=
  let (r, e1) := entranceRecords c ev before k r
  let (r, e2) := entranceCloses c ev before moving k (recordDirection k r)
  (r, e1 ++ e2)

/-- The entrance transitions of a car, lower or single deck first (R9 step 5). -/
def State.entrances (s : State) (c : CarIx) (before : Entrance) : CarRec × List ClosedEvent :=
  let mv := s.moving c
  if s.doubleDeck c then
    let (r, e1) := entranceDeck c .lower before mv .lower (s.car c)
    let (r, e2) := entranceDeck c .upper before mv .upper r
    (r, e1 ++ e2)
  else entranceDeck c .single before mv .lower (s.car c)

/-! ### Deck views (R19, R20) -/

/-- "--", space-padded to four characters. -/
def dashes : List Byte := [45, 45, 32, 32]

/-- The label R19 gives for the deck's current D. -/
def State.freshLabel (s : State) (c : CarIx) (k : Deck) : List Byte :=
  match (s.car c).present, (s.deckRec c k).floor with
  | true, some f =>
    if (s.carEntry c).express = .blank ∧ !s.serves c f then spaces 4 else (s.floorEntry f).label
  | _, _ => dashes

/-- The label presented, the stale policy applied (R20). -/
def State.presentedLabel (s : State) (c : CarIx) (k : Deck) : List Byte :=
  if (s.car c).present && (s.car c).stale then
    match (s.carEntry c).stalePolicy with
    | .holdLast => s.freshLabel c k
    | .dashes => dashes
    | .blank => spaces 4
  else s.freshLabel c k

/-- The service text of a car out of NORMAL service (R24). -/
def State.serviceText (s : State) (c : CarIx) : Option TextIx :=
  match (s.car c).mode with
  | .normal => none
  | .fire => some s.profile.fireText
  | .outOfService => some s.profile.outOfServiceText
  | .inspection => some s.profile.inspectionText
  | .independent => some s.profile.independentText

/-- Arrow and blink of a car's line (R116), by the moving test as it stands at the composition: a stored moving threshold shows in
the arrow at the recomposition of its store, before the car's next decision (the model's choice, log 31). -/
def State.carArrow (s : State) (c : CarIx) (routeBlink : Blink) : Dir × Blink :=
  let r := s.car c
  if !r.present || r.stale then (.none, .steady)
  else if s.moving c then ((if 0 < r.velocity then .up else .down), .steady)
  else if r.direction = .none then (.none, .steady)
  else (r.direction, routeBlink)

end Sys2Proof.Machine
end

