-- ==== Sys2Proof/Machine/Compose.lean ====
section
/-! DEFINITION. The composer (chapter 6): the content of a panel from its route, the notices, the loss state and the source
blocks, and what a recomposition does to the content record. -/

namespace Sys2Proof.Machine

/-! ### Lines and contents -/

/-- A text made as wide as the panel's columns: truncated from the right or padded with spaces (R104). -/
def fit (columns : Nat) (t : List Byte) : List Byte := (t ++ spaces (columns - t.length)).take columns

/-- A line of the panel's width. -/
def mkLine (columns : Nat) (t : List Byte) (arrow : Dir) (blink : Blink) : Line :=
  { text := fit columns t, arrow := arrow, blink := blink }

/-- The lines of a panel: those given, as many as the panel has, and spaces after them (R104). -/
def mkLines (pe : PanelEntry) (ls : List Line) : List Line :=
  (ls ++ List.replicate (pe.lines - ls.length) (Line.blank pe.columns)).take pe.lines

/-- A content without chime or urgent flag. -/
def mkContent (pe : PanelEntry) (kind : ContentKind) (ls : List Line) : Content :=
  { kind := kind, lines := mkLines pe ls, chime := .none, urgent := false }

/-! ### Sources (R116 to R121) -/

/-- CAR VIEW (R116, R117). -/
def State.carContent (s : State) (pe : PanelEntry) (r : Route) (c : CarIx) : Content :=
  let (arrow, blink) := s.carArrow c r.blink
  let label := s.presentedLabel c r.deck
  match s.serviceText c with
  | none => mkContent pe .car [mkLine pe.columns label arrow blink]
  | some t =>
    if pe.lines = 1 then mkContent pe .car [mkLine pe.columns (s.text t) arrow blink]
    else mkContent pe .car [mkLine pe.columns label arrow blink, mkLine pe.columns (s.text t) .none .steady]

/-- Arrow and blink of a lantern (R38). -/
def State.lanternShow (s : State) (k : Lantern) : Dir × Blink :=
  match k.state with
  | .dark => (.none, .steady)
  | .announcing => ((s.car k.car).direction, .ct s.profile.lanternTimer)
  | .arrived | .closing => ((s.car k.car).direction, .steady)

/-- LANTERN (R41, R118). A panel without a record shows a dark lantern. -/
def State.lanternContent (s : State) (pe : PanelEntry) (p : PanelIx) : Content :=
  match s.lantern p with
  | none => mkContent pe .lantern []
  | some k =>
    match k.state with
    | .dark => mkContent pe .lantern []
    | _ =>
      let (arrow, blink) := s.lanternShow k
      { mkContent pe .lantern [mkLine pe.columns (s.carEntry k.car).label arrow blink] with chime := k.chime }

/-- The deck and class characters of a prompt line (R64). -/
def PromptDeck.char : PromptDeck → Byte
  | .single => 32 | .lower => 76 | .upper => 85
def PromptClass.char : PromptClass → Byte
  | .standard => 32 | .accessible => 65 | .priority => 80 | .group => 71

/-- The eleven characters of a prompt record (R64). -/
def State.promptText (s : State) (r : Prompt) : List Byte :=
  (if (s.floorEntry r.destination).defined then (s.floorEntry r.destination).label else dashes)
    ++ [32, 62, 32] ++ (s.carEntry r.car).label ++ [r.deck.char, r.cls.char]

/-- The line of a prompt record (R64, R65). -/
def State.promptLine (s : State) (pe : PanelEntry) (r : Prompt) : Line :=
  if r.withdrawn then mkLine pe.columns (s.text s.profile.withdrawnText) .none (.ct s.profile.markerTimer)
  else mkLine pe.columns (s.promptText r) .none (if 0 < r.marker then .ct s.profile.markerTimer else .steady)

/-- KIOSK VIEW (R66). -/
def State.kioskContent (s : State) (pe : PanelEntry) (k : KioskIx) : Content :=
  mkContent pe .kiosk (if (s.kioskEntry k).enabled then (s.queue k).map (s.promptLine pe) else [])

/-- A car stands at a lobby (R120 step 3). -/
def State.atLobby (s : State) (c : CarIx) : Bool :=
  let r := s.car c
  r.present && !r.stale && r.lower.atFloor
    && (match r.lower.floor with
        | some f => (s.floorEntry f).lobby
        | none => false)

/-- The cars an OVERVIEW lists, in the order of its lines (R120). -/
def State.overviewCars (s : State) (r : Route) : List CarIx :=
  let range := (List.range r.count).filterMap fun i => indexOf 24 (r.a + i)
  let ordered := if r.mirror then range.reverse else range
  ordered.filter s.atLobby ++ ordered.filter fun c => !s.atLobby c

/-- One car's line on an overview board (R119). -/
def State.overviewLine (s : State) (pe : PanelEntry) (r : Route) (c : CarIx) : Line :=
  let (arrow, blink) := s.carArrow c r.blink
  let shown := match s.serviceText c with
    | none => s.presentedLabel c .lower
    | some t => s.text t
  mkLine pe.columns ((s.carEntry c).label ++ [32] ++ shown) arrow blink

/-- The content drawn from the route's source, step 5 of R113; a route that does not suit the panel gives BLANK. -/
def State.sourceContent (s : State) (p : PanelIx) : Content :=
  let pe := s.panelEntry p
  let r := s.routeInUse p
  if !r.suits pe.kind then mkContent pe .blank []
  else
    match r.kind with
    | .off => mkContent pe .blank []
    | .carView => s.carContent pe r (clampIndex 24 r.a)
    | .lantern => s.lanternContent pe p
    | .kioskView => s.kioskContent pe (clampIndex 32 r.a)
    | .overview => mkContent pe .overview ((s.overviewCars r).map (s.overviewLine pe r))
    | .fixedText => mkContent pe .text [mkLine pe.columns (s.text (clampIndex 64 r.a)) .none r.blink]

/-! ### The composition order (R113) -/

/-- The content beneath the notices under a loss action (R114); under HOLD the held content. -/
def State.lossContent (s : State) (p : PanelIx) : Content :=
  let pe := s.panelEntry p
  let r := s.routeInUse p
  match r.loss with
  | .hold => (s.content p).held.getD (s.sourceContent p)
  | .blank => mkContent pe .blank []
  | .fallback => mkContent pe .text [mkLine pe.columns (s.text r.fallback) .none .steady]

/-- The content beneath the notices: steps 2, 4 and 5 of R113. -/
def State.beneath (s : State) (p : PanelIx) : Content :=
  if (s.routeInUse p).kind = .off then mkContent (s.panelEntry p) .blank []
  else if s.loss.asserted then s.lossContent p
  else s.sourceContent p

/-- The content of a replacing notice (R77, R78). -/
def State.noticeContent (s : State) (pe : PanelEntry) (n : NoticeIx) : Content :=
  let e := s.noticeEntry n
  { mkContent pe .notice [mkLine pe.columns (s.text e.text) .none e.cadence] with urgent := e.cls.grave }

/-- The advisory laid over a content: on the last line of a panel of two or more lines (R80), by the phase of its timer on a
panel of one (R81). -/
def State.overlay (s : State) (pe : PanelEntry) (n : NoticeIx) (c : Content) : Content :=
  let e := s.noticeEntry n
  if 2 ≤ pe.lines then
    { c with lines := c.lines.take (pe.lines - 1) ++ [mkLine pe.columns (s.text e.text) .none e.cadence] }
  else
    let shown : Content := { c with lines := [mkLine pe.columns (s.text e.text) .none .steady] }
    match e.cadence with
    | .steady => shown
    | .ct t => if (s.timer t).phase = .a then shown else c

/-- The content composed for a panel (R113). -/
def State.compose (s : State) (p : PanelIx) : Content :=
  let pe := s.panelEntry p
  if !pe.enabled then mkContent pe .off []
  else
    match s.replacing p with
    | some n => s.noticeContent pe n
    | none =>
      match s.advisory p with
      | some n => s.overlay pe n (s.beneath p)
      | none => s.beneath p

/-! ### Recomposition (R110, R112, R115) -/

/-- The route-mismatch flag as this composition decides it; setting it from clear raises ROUTE MISMATCH (R110). -/
def decideMismatch (p : PanelIx) (s : State) : State :=
  let r := s.content p
  let bad := (s.panelEntry p).enabled && !(s.routeInUse p).suits (s.panelEntry p).kind
  let s' := s.setContent p { r with mismatch := bad }
  if bad && !r.mismatch then raise .routeMismatch s' else s'

/-- Capture of the held content: an enabled panel composed during loss under HOLD that has none (R115; a route of OFF has no
loss action: log 12). -/
def captureHeld (p : PanelIx) (s : State) : State :=
  let r := s.content p
  let rt := s.routeInUse p
  if s.loss.asserted && (s.panelEntry p).enabled && rt.kind != .off && rt.loss == .hold && r.held.isNone then
    s.setContent p { r with held := some (s.sourceContent p) }
  else s

/-- The comparison of R112: kind, chime, urgent flag and each line up to the panel's line count (log 13). -/
def Content.same (old new : Content) : Bool :=
  old.kind == new.kind && old.chime == new.chime && old.urgent == new.urgent
    && old.lines.take new.lines.length == new.lines

/-- Raise a pending PHASE frame on a link (R99). -/
def raisePhase (l : LinkIx) (s : State) : State := s.setLink l { s.link l with phasePending := true }

/-- The record takes a content that differs: the version moves on, and an acknowledged version it meets becomes NONE (R112).
A timer newly referenced on the link raises a pending PHASE frame (R99). -/
def takeContent (p : PanelIx) (c : Content) (s : State) : State :=
  let r := s.content p
  let v := r.version + 1
  let l := panelLink p
  let newly := allTimers.any fun t => linesReference c.lines t && !s.linkReferences l t
  let s' := s.setContent p { r with content := c, version := v, acked := if r.acked = some v then none else r.acked }
  if newly && (s.panelEntry p).enabled then raisePhase l s' else s'

/-- What a composition writes into the panel's lantern record: the version that first carries the pending chime, NONE where
the content carries none, and whether the versions have come round to it (R40, R112, log 11). -/
def noteChime (p : PanelIx) (c : Content) (changed : Bool) (s : State) : State :=
  match s.lantern p with
  | none => s
  | some k =>
    let v := (s.content p).version
    if k.chime = .none then s
    else if c.chime = .none then s.setLantern p (some { k with chimeVersion := none, chimeRound := false })
    else
      match k.chimeVersion with
      | none => s.setLantern p (some { k with chimeVersion := some v, chimeRound := false })
      | some w => s.setLantern p (some { k with chimeRound := k.chimeRound || (changed && w == v) })

/-- Mark a running exercise to end: the cause noted first stands (R155). -/
def requestEnd (cause : EndCause) (s : State) : State :=
  let x := s.exercise
  if x.state = .running ∧ !x.endRequested then s.setExercise { x with endRequested := true, cause := cause } else s

/-- A panel that falls into class 1 on a link running an exercise marks the run to end with cause URGENT (R136, R155). -/
def noteUrgent (p : PanelIx) (s : State) : State :=
  if s.exercise.link = panelLink p ∧ s.inUrgent p then requestEnd .urgent s else s

/-- A composition that finds the content unchanged: the version stays, and lines above a lowered line count leave the record,
so that a timer they named is no longer referenced (R104, R99, log 13). -/
def keepContent (p : PanelIx) (c : Content) (s : State) : State := s.setContent p { s.content p with content := c }

/-- Compare a composed content with the record and take it where it differs (R112). -/
def commitContent (p : PanelIx) (c : Content) (s : State) : State :=
  if (s.content p).content.same c then noteChime p c false (keepContent p c s)
  else noteUrgent p (noteChime p c true (takeContent p c s))

/-- Recompose a panel at the moment its cause is taken (R112, R123). -/
def recompose (p : PanelIx) (s : State) : State :=
  let s := captureHeld p (decideMismatch p s)
  commitContent p (s.compose p) s

/-- Recompose the panels a test names, the test being made on the state as the cause finds it (order: log 9). -/
def recomposeWhere (q : PanelIx → Bool) (s : State) : State := forEach (allPanels.filter q) recompose s

/-- Recompose every enabled panel (R114, R124). -/
def recomposeEnabled (s : State) : State := recomposeWhere (fun p => (s.panelEntry p).enabled) s

/-- Whether an enabled panel's route in use shows the car: CAR VIEW of it, or OVERVIEW with it in range (R123). -/
def State.showsCar (s : State) (c : CarIx) (p : PanelIx) : Bool :=
  let r := s.routeInUse p
  (s.panelEntry p).enabled
    && ((r.kind == .carView && r.a == c.val) || (r.kind == .overview && r.a ≤ c.val && c.val < r.a + r.count))

/-- The composer is told of a changed car record (R123). -/
def recomposeCar (c : CarIx) (s : State) : State := recomposeWhere (s.showsCar c) s

/-- The composer is told of a kiosk whose displayed lines changed (R66, R123). -/
def recomposeKiosk (k : KioskIx) (s : State) : State :=
  recomposeWhere (fun p => (s.panelEntry p).enabled && (s.routeInUse p).kind == .kioskView && (s.routeInUse p).a == k.val) s

end Sys2Proof.Machine
end

