-- ==== Sys2Proof/Machine/Timers.lean ====
section
/-! DEFINITION. The cadence timers (chapter 5): counting, limits, cycle ends, restarts, retriggers, CADENCE SYNC, and what a
phase change does. -/

namespace Sys2Proof.Machine

/-! ### One timer -/

/-- The current limit: limit A in SINGLE mode and in phase A, limit B in phase B of ALTERNATE mode (R90). -/
def currentLimit (e : CadenceEntry) (t : Timer) : Nat :=
  match e.mode, t.phase with
  | .alternate, .b => e.limitB
  | _, _ => e.limitA

/-- A limit of 0 stands for 65,536 (R87, R90). -/
def limitCount (limit : Nat) : Nat := if limit = 0 then 65536 else limit

/-- Whether the next source event of a running timer reaches its limit (R90). -/
def atLimit (e : CadenceEntry) (t : Timer) : Bool := t.running && t.count + 1 == limitCount (currentLimit e t)

/-- The other phase. -/
def Phase.toggle : Phase → Phase
  | .a => .b
  | .b => .a

/-- The end of a cycle: the cycle count increments, and a ONE-SHOT timer stops or is armed (R91). -/
def endCycle (e : CadenceEntry) (t : Timer) : Timer :=
  let t := { t with cycle := t.cycle + 1 }
  if e.oneShot then { t with running := false, armed := e.retrigger != .none } else t

/-- A limit event: the count returns to 0; in ALTERNATE mode the phase toggles, and the return to A ends the cycle; in SINGLE
mode every limit event ends a cycle (R90, R91). -/
def limitReached (e : CadenceEntry) (t : Timer) : Timer :=
  let t0 := { t with count := 0 }
  match e.mode with
  | .alternate =>
    let t1 := { t0 with phase := t.phase.toggle }
    if t.phase = .b then endCycle e t1 else t1
  | _ => endCycle e t0

/-- One source event (R89, R90): only a running timer counts; a count that passes 65,535 without its limit returns to 0. -/
def countTimer (e : CadenceEntry) (t : Timer) : Timer :=
  if !t.running then t
  else if atLimit e t then limitReached e t
  else if t.count + 1 = 65536 then { t with count := 0 }
  else { t with count := t.count + 1 }

/-- A restart (R93). -/
def restartTimer (e : CadenceEntry) : Timer :=
  { count := 0, phase := .a, cycle := 0
    running := e.mode != .off && (!e.oneShot || e.retrigger == .none)
    armed := e.mode != .off && e.oneShot && e.retrigger != .none }

/-- A retrigger of the timer's kind (R95). -/
def retriggerTimer (e : CadenceEntry) (t : Timer) : Timer :=
  if e.mode = .off then t
  else if t.running then { t with count := 0 }
  else if t.armed then { t with armed := false, running := true }
  else t

/-- CADENCE SYNC on a named timer (R97). -/
def syncTimer (t : Timer) : Timer := { t with count := 0, phase := .a, cycle := 0 }

/-! ### In the part -/

/-- The panels an advisory alternates on by the timer: enabled, of one line, without a replacing notice (R81, R100). -/
def State.alternates (s : State) (t : TimerIx) (p : PanelIx) : Bool :=
  (s.panelEntry p).enabled && (s.panelEntry p).lines == 1 && (s.replacing p).isNone
    && (match s.advisory p with
        | some n => (s.noticeEntry n).cadence == .ct t
        | none => false)

/-- A phase change: a pending PHASE frame on every link whose enabled panels reference the timer (R99), and the one-line
advisory panels of the timer recomposed (R100). The frames are raised first, by the references before the recompositions (the
model's choice, log 33). -/
def phaseChanged (t : TimerIx) (s : State) : State :=
  let s := forEach (allLinks.filter fun l => s.linkReferences l t) raisePhase s
  recomposeWhere (s.alternates t) s

/-- Give a timer its new state; a change of phase is told (R99, R100). -/
def putTimer (t : TimerIx) (x : Timer) (s : State) : State :=
  let changed := (s.timer t).phase != x.phase
  let s := s.setTimer t x
  if changed then phaseChanged t s else s

/-- A source event taken by one timer. -/
def sourceEvent (t : TimerIx) (s : State) : State := putTimer t (countTimer (s.cadenceEntry t) (s.timer t)) s

/-- Whether CT0 to CT2 counts the limit events of CT3 (R89). -/
def State.chained (s : State) (t : TimerIx) : Bool := t != 3 && (s.cadenceEntry t).source == .ct3

/-- A source event with what follows from it: a limit event of CT3 is a source event of its chained timers (R90, R92). CT3's own
toggle, with what it brings, comes before they count (the model's choice, log 28). -/
def sourceEventChain (t : TimerIx) (s : State) : State :=
  let reached := atLimit (s.cadenceEntry t) (s.timer t)
  let s' := sourceEvent t s
  if t = 3 ∧ reached then forEach (allTimers.filter s.chained) sourceEvent s' else s'

/-- The base tick as the timers take it: each timer of source BASE counts it (R86, R89), CT0 first (the model's choice, log 28). -/
def tickTimers (s : State) : State := forEach (allTimers.filter fun t => !s.chained t) sourceEventChain s

/-- A retrigger event of a kind, taken by every timer whose retrigger field names it (R95). -/
def retrigger (k : Retrigger) (s : State) : State :=
  forEach (allTimers.filter fun t => (s.cadenceEntry t).retrigger == k)
    (fun t s => s.setTimer t (retriggerTimer (s.cadenceEntry t) (s.timer t))) s

/-- A cadence entry stored over `old`: a change of mode, run, source or retrigger restarts the timer (R93); otherwise only the
limits change, from its next count on (R94). -/
def cadenceStored (t : TimerIx) (old : CadenceEntry) (s : State) : State :=
  let e := s.cadenceEntry t
  if e.mode = old.mode ∧ e.oneShot = old.oneShot ∧ e.source = old.source ∧ e.retrigger = old.retrigger then s
  else putTimer t (restartTimer e) s

/-- A taken CADENCE SYNC frame: one byte of payload, bit n naming CTn (R97); the named timers take
it in order, CT0 first (the model's choice, log 28). -/
def cadenceSyncFrame (payload : List Byte) (s : State) : State :=
  match payload with
  | [m] => forEach (allTimers.filter fun t => m.getLsbD t.val) (fun t s => putTimer t (syncTimer (s.timer t)) s) s
  | _ => bump .malformed s

end Sys2Proof.Machine
end

