-- ==== Sys2Proof/Machine/Lanterns.lean ====
section
/-! DEFINITION. The lantern unit (chapter 2): when a record exists, what state its car gives it, the chime, and the
acknowledgement that delivers it. -/

namespace Sys2Proof.Machine

/-! ### The state the conditions give (R33 to R37) -/

/-- The stopping floor of a record (R37). -/
def State.stoppingFloor (s : State) (k : Lantern) : Option FloorIx :=
  match (s.car k.car).nextStop with
  | none => none
  | some n =>
    if !(s.floorEntry n).defined then none
    else if k.deck = .upper ∧ s.doubleDeck k.car then
      nearest (s.candidate k.car) s.level (min (s.level n + (s.carEntry k.car).deckOffset) Config.maxPosition) false
    else if allFloors.any (s.candidate k.car) then some n
    else none

/-- The record's arrival floor (R34). -/
def State.arrivalFloor (s : State) (k : Lantern) : Option FloorIx :=
  let d := s.deckRec k.car k.deck
  let e := (s.car k.car).entrance
  match d.openFloor with
  | some f => some f
  | none => if d.atFloor && (e == .opening || e == .closing) then d.floor else none

/-- The conditions without which a record is DARK (R33). -/
def State.canLight (s : State) (k : Lantern) : Bool :=
  let r := s.car k.car
  r.present && !r.stale && r.mode == .normal && (s.floorEntry k.floor).defined

/-- Moving toward the record's floor (R35). -/
def State.movingToward (s : State) (k : Lantern) : Bool :=
  let v := (s.car k.car).velocity
  let pd := s.deckPosition k.car k.deck
  s.moving k.car && ((decide (0 < v) && decide (pd < s.level k.floor)) || (decide (v < 0) && decide (s.level k.floor < pd)))

/-- The difference of two floor indices. -/
def floorDiff (a b : FloorIx) : Nat := dist a.val b.val

/-- The conditions of ANNOUNCING (R35), with the arrival hold for a record that was ANNOUNCING. -/
def State.announces (s : State) (k : Lantern) : Bool :=
  let r := s.car k.car
  match (s.deckRec k.car k.deck).floor with
  | none => false
  | some d =>
    s.stoppingFloor k == some k.floor && r.direction != .none && decide (floorDiff d k.floor ≤ (s.carEntry k.car).lanternLead)
      && (s.movingToward k
          || (!s.moving k.car && r.entrance == .closed && (d != k.floor || k.state == .announcing)))

/-- The state an evaluation gives a record: ARRIVED, CLOSING, ANNOUNCING tried in this order, else DARK (R32). `left` says that an
entrance-closed event of the frame names the record's car, floor and deck: that frame's evaluation yields no ARRIVED or CLOSING
(R36), and every later one follows R34 again (log 34). -/
def State.lanternState (s : State) (left : Bool) (k : Lantern) : LanternState :=
  let e := (s.car k.car).entrance
  let arrived := !left && s.arrivalFloor k == some k.floor
  if !s.canLight k then .dark
  else if arrived ∧ (e = .open ∨ e = .opening) then .arrived
  else if arrived ∧ e = .closing then .closing
  else if s.announces k then .announcing
  else .dark

/-! ### What an evaluation does to a record (R36, R39) -/

/-- The end of a visit (R36). -/
def Lantern.darken (k : Lantern) : Lantern :=
  { k with state := .dark, chime := .none, given := false, chimeVersion := none, chimeRound := false }

/-- Whether an evaluation into state `st` with direction `dir` requests the chime (R39). -/
def Lantern.requests (k : Lantern) (st : LanternState) (dir : Dir) : Bool :=
  dir != .none && ((st == .announcing && k.state == .dark) || (st == .arrived && !k.given))

/-- The record after an evaluation that gives `st`, its car's committed direction being `dir` (R36, R39). -/
def Lantern.evaluated (k : Lantern) (st : LanternState) (dir : Dir) : Lantern :=
  if st = .dark then (if k.state = .dark then k else k.darken)
  else if k.requests st dir then { k with state := st, chime := dir, given := true }
  else if k.chime ≠ .none ∧ dir ≠ .none then { k with state := st, chime := dir }
  else { k with state := st }

/-- The chime of held content goes with the visit or the delivery of the record that supplied it (R115). -/
def dropHeldChime (p : PanelIx) (s : State) : State :=
  let r := s.content p
  match r.held with
  | some h => s.setContent p { r with held := some { h with chime := .none } }
  | none => s

/-- The entrance-closed event names the record: its car, its floor, and a deck that matches (R36). -/
def ClosedEvent.names (e : ClosedEvent) (k : Lantern) : Bool :=
  e.car == k.car && e.floor == k.floor
    && (match e.deck with
        | .single => true
        | .lower => k.deck == .lower
        | .upper => k.deck == .upper)

/-- One of a frame's entrance-closed events names the record (R36). -/
def Lantern.leftIn (k : Lantern) (evs : List ClosedEvent) : Bool := evs.any fun e => e.names k

/-- Apply the entrance-closed events to a panel's record (R36). The composer is not told yet: the record's panel is recomposed at the
frame's evaluation, once (the model's choice, log 36). -/
def darkenBy (evs : List ClosedEvent) (p : PanelIx) (s : State) : State :=
  match s.lantern p with
  | some k =>
    if k.state != .dark && k.leftIn evs then dropHeldChime p (s.setLantern p (some k.darken)) else s
  | none => s

/-- Evaluate a panel's record (R32) with the entrance-closed events of the frame that leads to it: its new state and chime, the
LANTERN ARRIVAL retrigger of an entry into ARRIVED (R42), and the panel recomposed. A record that stays DARK changes nothing. -/
def evaluate (evs : List ClosedEvent) (p : PanelIx) (s : State) : State :=
  match s.lantern p with
  | none => s
  | some k =>
    let st := s.lanternState (k.leftIn evs) k
    let s1 := s.setLantern p (some (k.evaluated st (s.car k.car).direction))
    let s2 := if st = .dark ∧ k.state ≠ .dark then dropHeldChime p s1 else s1
    let s3 := if st = .arrived ∧ k.state ≠ .arrived then retrigger .lanternArrival s2 else s2
    recompose p s3

/-- Evaluate the records a test names, by panel number (log 9). -/
def evaluateWhere (evs : List ClosedEvent) (q : Lantern → Bool) (s : State) : State :=
  forEach (allPanels.filter fun p => (s.lantern p).any q) (evaluate evs) s

/-- The lantern unit is told of a changed car record with a frame's entrance-closed events: these are applied to all records
first, then every record of the car is evaluated (R32, R36). -/
def lanternsOfCar (c : CarIx) (evs : List ClosedEvent) (s : State) : State :=
  evaluateWhere evs (fun k => k.car == c) (forEach allPanels (darkenBy evs) s)

/-! ### When a record exists (R30, R31) -/

/-- The floor, car and deck a panel's record names, where the panel has one (R30). -/
def State.lanternTarget (s : State) (p : PanelIx) : Option (FloorIx × CarIx × Deck) :=
  let pe := s.panelEntry p
  let r := s.routeInUse p
  if pe.enabled && pe.kind == .lantern && r.kind == .lantern then
    match indexOf 160 r.a, indexOf 24 r.b with
    | some f, some c => some (f, c, r.deck)
    | _, _ => none
  else none

/-- A new record, evaluated at once and silently: it joins a visit in progress with its chime taken as given (R31). -/
def State.newLantern (s : State) (f : FloorIx) (c : CarIx) (d : Deck) : Lantern :=
  let k : Lantern :=
    { floor := f, car := c, deck := d, state := .dark, chime := .none, given := false, chimeVersion := none, chimeRound := false }
  let st := s.lanternState false k
  { k with state := st, given := st != .dark }

/-- A panel's record begins, is kept or ends (R31). -/
def syncLantern (p : PanelIx) (s : State) : State :=
  match s.lanternTarget p with
  | none => s.setLantern p none
  | some (f, c, d) =>
    match s.lantern p with
    | some k => if k.floor = f ∧ k.car = c ∧ k.deck = d then s else s.setLantern p (some (s.newLantern f c d))
    | none => s.setLantern p (some (s.newLantern f c d))

/-- A route or panel entry in use has changed: the lantern record first, then the panel's content (R31, R105, R109). -/
def rerouted (p : PanelIx) (s : State) : State := recompose p (syncLantern p s)

/-! ### Delivery of a chime (R40) -/

/-- Whether an acknowledgement of version `a` covers the chime version: counting forward from it, `a` comes at or before the
panel's current version; once the versions have come round to it, every version covers (R40, log 11). -/
def Lantern.coveredBy (k : Lantern) (a current : Byte) : Bool :=
  match k.chimeVersion with
  | none => false
  | some w => k.chimeRound || decide ((a - w).toNat ≤ (current - w).toNat)

/-- An ACK of version `a` is handed to the panel's lantern record: a covering one delivers the chime (R40, R132 step 5). -/
def deliverChime (p : PanelIx) (a : Byte) (s : State) : State :=
  match s.lantern p with
  | none => s
  | some k =>
    if k.chime ≠ .none ∧ k.coveredBy a (s.content p).version then
      recompose p (dropHeldChime p (s.setLantern p (some { k with chime := .none, chimeVersion := none, chimeRound := false })))
    else s

end Sys2Proof.Machine
end

