-- ==== Sys2Proof/Machine/Prompts.lean ====
section
/-! DEFINITION. The prompt unit (chapter 3): ASSIGN and CANCEL, the holds at a housekeeping tick, boarding, withdrawal and
restore, and flush. -/

namespace Sys2Proof.Machine

/-! ### Records -/

/-- The class hold from the kiosk's base hold (R49). -/
def classHold (base : Nat) : PromptClass → Nat
  | .standard | .priority => base
  | .accessible => min (2 * base) 255
  | .group => min (3 * base / 2) 255

/-- The car is heard and out of NORMAL service (R52). -/
def State.outOfNormal (s : State) (c : CarIx) : Bool := (s.car c).present && (s.car c).mode != .normal

/-- The hold an ASSIGN loads: the class hold, or the withdrawn hold where that is less and the car is out of service (R52). -/
def State.assignHold (s : State) (a : Assignment) : Nat :=
  let h := classHold (s.effHold a.kiosk) a.cls
  if s.outOfNormal a.car then min h (s.effWithdrawnHold a.kiosk) else h

/-- The record an ASSIGN leaves, with the given marker (R52, R53). -/
def State.assigned (s : State) (a : Assignment) (marker : Nat) : Prompt :=
  { ticket := a.ticket, destination := a.destination, car := a.car, deck := a.deck, cls := a.cls, hold := s.assignHold a
    marker := marker, withdrawn := s.outOfNormal a.car }

/-- Replace a queue and tell the composer (R66). -/
def putQueue (k : KioskIx) (q : List Prompt) (s : State) : State := recomposeKiosk k (s.setQueue k q)

/-! ### ASSIGN and CANCEL (R50 to R55) -/

/-- A ticket that is not in the queue: the back record of a full queue is evicted, then the new record joins at the front
(R52). -/
def assignNew (a : Assignment) (s : State) : State :=
  let q := s.queue a.kiosk
  let r := s.assigned a 0
  if q.length < Config.queueMax then putQueue a.kiosk (r :: q) s
  else putQueue a.kiosk (r :: q.take (Config.queueMax - 1)) (raise .promptEvicted (bump .promptsEvicted s))

/-- A ticket already in the queue: its record moves to the front with the frame's fields; another car or deck is a
reassignment, which loads the marker and raises the retrigger (R53). -/
def assignMove (a : Assignment) (old : Prompt) (s : State) : State :=
  let moved := old.car != a.car || old.deck != a.deck
  let rest := (s.queue a.kiosk).filter fun r => r.ticket != a.ticket
  let r := s.assigned a (if moved then s.profile.markerTime else old.marker)
  let s := if moved then retrigger .reassignment s else s
  putQueue a.kiosk (r :: rest) s

/-- A taken ASSIGN frame (R50 to R53). -/
def assignFrame (payload : List Byte) (s : State) : State :=
  match parseAssign payload with
  | none => bump .malformed s
  | some a =>
    if !(s.kioskEntry a.kiosk).enabled then bump .malformed s
    else if s.kioskClosed a.kiosk then bump .assignRefused s
    else
      match (s.queue a.kiosk).find? fun r => r.ticket == a.ticket with
      | none => assignNew a s
      | some old => assignMove a old s

/-- A taken CANCEL frame (R55). -/
def cancelFrame (payload : List Byte) (s : State) : State :=
  match parseCancel payload with
  | none => bump .malformed s
  | some (k, t) =>
    if (s.queue k).any fun r => r.ticket == t then putQueue k ((s.queue k).filter fun r => r.ticket != t) s
    else bump .unmatchedCancels s

/-! ### The housekeeping tick (R54, R56) -/

/-- The withdrawn flag is cleared for a car that is present and in NORMAL service (R56). -/
def State.restoredAt (s : State) (r : Prompt) : Bool := (s.car r.car).present && (s.car r.car).mode == .normal

/-- A record that stays, after the tick. -/
def State.agedPrompt (s : State) (r : Prompt) : Prompt :=
  { r with hold := r.hold - 1, marker := r.marker - 1, withdrawn := r.withdrawn && !s.restoredAt r }

/-- Whether the tick brings the record's hold to 0. -/
def Prompt.expires (r : Prompt) : Bool := r.hold ≤ 1

/-- Whether the tick changes what the kiosk displays of a record: it leaves, its blink ends, or its flag is cleared. -/
def State.tickShows (s : State) (r : Prompt) : Bool :=
  r.expires || r.marker == 1 || (r.withdrawn && s.restoredAt r)

/-- The tick on one queue. -/
def tickQueue (k : KioskIx) (s : State) : State :=
  let q := s.queue k
  let kept := (q.filter fun r => !r.expires).map s.agedPrompt
  let s1 := bumpN .promptsExpired (q.countP Prompt.expires) (s.setQueue k kept)
  if q.any s.tickShows then recomposeKiosk k s1 else s1

/-- The tick on every queue: by increasing kiosk index, each kiosk's panels recomposed before the next kiosk (the model's choice,
log 32). -/
def tickPrompts (s : State) : State := forEach allKiosks tickQueue s

/-- One record's hold reaches 0: the part of the tick that removes it (R56, log 4). -/
def expirePrompt (k : KioskIx) (t : BitVec 16) (s : State) : State :=
  let q := s.queue k
  let due := fun r : Prompt => r.ticket == t && r.expires
  if q.any due then putQueue k (q.filter fun r => !due r) (bumpN .promptsExpired (q.countP due) s) else s

/-- One record's marker reaches 0 (R54, log 4). -/
def endMarker (k : KioskIx) (t : BitVec 16) (s : State) : State :=
  let q := s.queue k
  let due := fun r : Prompt => r.ticket == t && r.marker == 1
  if q.any due then putQueue k (q.map fun r => if due r then { r with marker := 0 } else r) s else s

/-! ### Events of the car tracker (R57 to R61) -/

/-- Whether a record's deck matches the event's (R57). -/
def deckMatches : PromptDeck → PromptDeck → Bool
  | .single, _ => true
  | .lower, d => d == .lower || d == .single
  | .upper, d => d == .upper || d == .single

/-- The direction filter (R58). -/
def directionTakes (dir : Dir) (destination floor : FloorIx) : Bool :=
  match dir with
  | .up => decide (floor < destination)
  | .down => decide (destination < floor)
  | .none => true

/-- Whether an entrance-closed event boards a record (R57, R58). -/
def ClosedEvent.boards (e : ClosedEvent) (r : Prompt) : Bool :=
  r.car == e.car && deckMatches e.deck r.deck && directionTakes e.dir r.destination e.floor

/-- An entrance-closed event at one kiosk (R57). -/
def boardAt (e : ClosedEvent) (k : KioskIx) (s : State) : State :=
  let q := s.queue k
  if (s.kioskEntry k).enabled && (s.kioskEntry k).floor == e.floor && q.any e.boards then
    putQueue k (q.filter fun r => !e.boards r) (bumpN .promptsBoarded (q.countP e.boards) s)
  else s

/-- An entrance-closed event at every kiosk, in the order of log 32. -/
def boarding (e : ClosedEvent) (s : State) : State := forEach allKiosks (boardAt e) s

/-- A withdrawal event: every record of the car is marked, its hold cut to the kiosk's withdrawn hold (R60). -/
def withdrawAt (c : CarIx) (k : KioskIx) (s : State) : State :=
  let q := s.queue k
  let s' := s.setQueue k
    (q.map fun r => if r.car = c then { r with withdrawn := true, hold := min r.hold (s.effWithdrawnHold k) } else r)
  if q.any fun r => r.car == c && !r.withdrawn then recomposeKiosk k s' else s'

/-- A restore event clears the flag of every record of the car and lengthens no hold (R61). -/
def restoreAt (c : CarIx) (k : KioskIx) (s : State) : State :=
  let q := s.queue k
  let s' := s.setQueue k (q.map fun r => if r.car = c then { r with withdrawn := false } else r)
  if q.any fun r => r.car == c && r.withdrawn then recomposeKiosk k s' else s'

/-- The service event of a frame: leaving NORMAL withdraws, returning to it restores (R23), kiosk by kiosk in the
order of log 32. -/
def serviceEvent (c : CarIx) (before after : Mode) (s : State) : State :=
  if before = .normal ∧ after ≠ .normal then forEach allKiosks (withdrawAt c) s
  else if before ≠ .normal ∧ after = .normal then forEach allKiosks (restoreAt c) s
  else s

/-! ### Flush (R62, R63) -/

/-- A flush empties the kiosk's queue and counts each record (R62). -/
def flush (k : KioskIx) (s : State) : State :=
  putQueue k [] (bumpN .promptsFlushed (s.queue k).length s)

/-- The enabled kiosks whose zone is among those newly covered are flushed (R63), in the order of log 32. -/
def flushZones (zones : BitVec 16) (s : State) : State :=
  forEach (allKiosks.filter fun k => (s.kioskEntry k).enabled && zones.getLsbD (s.kioskEntry k).zone.val) flush s

/-- A kiosk entry stored over `old` (R46); the composer is told of a store that changes a field. -/
def kioskStored (k : KioskIx) (old : KioskEntry) (s : State) : State :=
  let e := s.kioskEntry k
  let s1 :=
    if old.enabled && !e.enabled then flush k s
    else if e.enabled && old.enabled && old.zone != e.zone && s.kioskClosed k then flush k s
    else s
  if e = old then s1 else recomposeKiosk k s1

end Sys2Proof.Machine
end

