-- ==== Sys2Proof/Machine/CarFrames.lean ====
section
/-! DEFINITION. The car tracker's events: a taken CAR STATE frame (R7 to R9, R22, R23), stale cars (R21), the re-decision of a
table write (R28, R29) and a disabled car (R4). -/

namespace Sys2Proof.Machine

/-- The results of a change of a car record are handed to the lantern unit and then to the composer (R9 step 7). -/
def carChanged (c : CarIx) (evs : List ClosedEvent) (s : State) : State := recomposeCar c (lanternsOfCar c evs s)

/-- A position or velocity outside its range is stored at the limit (R8). -/
def clampVelocity (v : Int) : Int := max (-(Config.maxVelocity : Int)) (min (Config.maxVelocity : Int) v)

/-- How many of the two clamps of R8 the report needs. -/
def CarReport.clamps (r : CarReport) : Nat :=
  flagNat (decide (Config.maxPosition < r.position)) + flagNat (decide (Config.maxVelocity < r.velocity.natAbs))

/-- Steps 2 and 3 of R9: the frame's fields stored in range, the countdown reloaded, stale cleared, present set. -/
def State.reported (s : State) (r : CarReport) : CarRec :=
  { s.car r.car with
    present := true, stale := false, position := min r.position Config.maxPosition, velocity := clampVelocity r.velocity
    entrance := r.entrance, mode := r.mode, direction := r.direction, nextStop := r.nextStop
    staleCountdown := s.effStale r.car }

/-- Steps 2 to 5 of R9: the car record as the whole frame leaves it, and the frame's entrance-closed events. -/
def trackReport (r : CarReport) (s : State) : State × List ClosedEvent :=
  let c := r.car
  let before := (s.car c).entrance
  let s := s.setCar c (s.reported r)
  let s := s.setCar c { s.decideDecks c (fun s k => s.decideFloor c k) with snapPending := false }
  let (rec, evs) := s.entrances c before
  (s.setCar c rec, evs)

/-- An accepted CAR STATE frame (R9): the record, then the prompt unit (boarding before withdrawal or restore), then the
lantern unit, then the composer. -/
def acceptReport (r : CarReport) (s : State) : State :=
  let c := r.car
  let before := (s.car c).mode
  let (s, evs) := trackReport r (bumpN .inputClamps r.clamps s)
  let s := forEach evs boarding s
  let s := serviceEvent c before (s.car c).mode s
  carChanged c evs s

/-- A taken CAR STATE frame: malformed for its length, car or codes, or for a disabled car (R7), otherwise accepted. -/
def carStateFrame (payload : List Byte) (s : State) : State :=
  match parseCarState payload with
  | none => bump .malformed s
  | some r => if (s.carEntry r.car).enabled then acceptReport r s else bump .malformed s

/-- A car becomes stale (R21). -/
def becomeStale (c : CarIx) (s : State) : State :=
  carChanged c [] (s.setCar c { s.car c with staleCountdown := 0, stale := true, snapPending := true })

/-- Whether the car's countdown runs (R21). -/
def CarRec.counting (r : CarRec) : Bool := r.present && !r.stale

/-- The housekeeping tick on one car (R21). -/
def tickCar (c : CarIx) (s : State) : State :=
  let r := s.car c
  if !r.counting then s
  else if r.staleCountdown ≤ 1 then becomeStale c s
  else s.setCar c { r with staleCountdown := r.staleCountdown - 1 }

/-- The housekeeping tick on every car: by increasing index, the lantern unit and the composer told of a car that becomes stale
before the next car is counted (the model's choice, log 25). -/
def tickCars (s : State) : State := forEach allCars tickCar s

/-- The re-decision of one present car: a snap of each deck from the last received position (R28). -/
def redecideCar (c : CarIx) (s : State) : State :=
  if (s.car c).present then s.setCar c (s.decideDecks c fun s k => s.snap c k) else s

/-- Every present car re-decided (R28). -/
def redecideAll (s : State) : State := forEach allCars redecideCar s

/-- A floor or service-map entry stored: every present car re-decided, the lantern records of those cars and, for a floor, of
that floor evaluated (R28, R32, R44), and every enabled panel recomposed (R124). That all cars are re-decided before the lantern
unit is told, and it before the composer, is the model's choice (log 26). -/
def trackerStored (q : State → Lantern → Bool) (s : State) : State :=
  let s := redecideAll s
  recomposeEnabled (evaluateWhere [] (fun k => (s.car k.car).present || q s k) s)

/-- A car entry stored over `old`: disabling returns the record to its reset values (R4); a deck offset that becomes 0 clears
the upper deck's fields (R29), and keeps the recorded direction (the model's choice, log 27). -/
def carEntryApplied (c : CarIx) (old : CarEntry) (s : State) : State :=
  let e := s.carEntry c
  if old.enabled && !e.enabled then s.setCar c .powerOn
  else if (s.car c).present && old.deckOffset != 0 && e.deckOffset == 0 then s.setCar c { s.car c with upper := .powerOn }
  else s

/-- A car entry stored (R4, R28, R29, R44, R124). -/
def carStored (c : CarIx) (old : CarEntry) (s : State) : State :=
  trackerStored (fun _ k => k.car == c) (carEntryApplied c old s)

end Sys2Proof.Machine
end

