-- ==== Sys2Proof/Machine/Notices.lean ====
section
/-! DEFINITION. The notice unit's events (chapter 4): NOTICE frames and stores into the notice table. -/

namespace Sys2Proof.Machine

/-- The zones an EVACUATION or RECALL entry covers that no active notice of those classes covers in `s` (R73, R82). -/
def State.newlyClosed (s : State) (e : NoticeEntry) : BitVec 16 :=
  if e.enabled && e.cls.grave then
    (List.finRange 16).foldl (fun m (z : Zone) => if s.zoneClosed z then m &&& ~~~(1#16 <<< z.val) else m) e.zones
  else 0

/-- The enabled panels a notice covers. -/
def State.coveredPanels (s : State) (n : NoticeIx) : PanelIx → Bool :=
  fun p => (s.panelEntry p).enabled && s.covers n p

/-- A NOTICE frame "on" for an enabled entry (R73). -/
def activate (n : NoticeIx) (s : State) : State :=
  if s.isActive n then s
  else
    let zones := s.newlyClosed (s.noticeEntry n)
    let s := flushZones zones (s.setActive n true)
    let s := retrigger .noticeActivation s
    recomposeWhere (s.coveredPanels n) s

/-- A NOTICE frame "off" for an enabled entry (R74). -/
def deactivate (n : NoticeIx) (s : State) : State :=
  if !s.isActive n then s
  else recomposeWhere (s.coveredPanels n) (s.setActive n false)

/-- A taken NOTICE frame (R72 to R74). -/
def noticeFrame (payload : List Byte) (s : State) : State :=
  match parseNotice payload with
  | none => bump .malformed s
  | some (n, on) =>
    if !(s.noticeEntry n).enabled then bump .malformed s
    else if on then activate n s
    else deactivate n s

/-- A notice entry stored; `before` is the state before the store (R82). Only an active notice's store has an effect. That the flush,
with its kiosks' recompositions, comes before the covered panels are recomposed, as R73 has it for an activation, is the model's
choice: R82 gives no order (log 35). -/
def noticeStored (n : NoticeIx) (before : State) (s : State) : State :=
  if !before.isActive n then s
  else if !(s.noticeEntry n).enabled then
    recomposeWhere (before.coveredPanels n) (s.setActive n false)
  else
    let s := flushZones (before.newlyClosed (s.noticeEntry n)) s
    recomposeWhere (fun p => before.coveredPanels n p || s.coveredPanels n p) s

end Sys2Proof.Machine
end

