-- ==== Sys2Proof/Machine/Links.lean ====
section
/-! DEFINITION. The panel link controllers (chapter 7) and the exercise unit's use of a link (chapter 8): panel health, the
scheduler, bank adoption, exercise runs, and what happens at each moment a line falls free. -/

namespace Sys2Proof.Machine

/-! ### Panel health (R142 to R145) -/

/-- What R145 decides: at least one enabled panel, and every enabled panel faulted. -/
def State.allFaulted (s : State) (l : LinkIx) : Bool :=
  (linkPanels l).any (fun p => (s.panelEntry p).enabled)
    && (linkPanels l).all fun p => !(s.panelEntry p).enabled || (s.healthOf p).faulted

/-- The link fault decided; entering it raises LINK FAULT (R145). -/
def decideLinkFault (l : LinkIx) (s : State) : State :=
  let now := s.allFaulted l
  let k := s.link l
  let s' := s.setLink l { k with fault := now }
  if now && !k.fault then raise .linkFault s' else s'

/-- One outcome counted (R142). -/
def Health.counted (h : Health) (good : Bool) : Health :=
  if good then { h with goods := min (h.goods + 1) 255, misses := 0 }
  else { h with misses := min (h.misses + 1) 255, goods := 0 }

/-- The faulted flag R143 decides after an outcome is counted. -/
def Health.nowFaulted (h : Health) (pr : Profile) (good : Bool) : Bool :=
  if good then h.faulted && !decide (pr.clearThreshold ≤ h.goods)
  else h.faulted || decide (pr.assertThreshold ≤ h.misses)

/-- A health record after an outcome: a change of the faulted flag sets delta, and becoming faulted loads the retry countdown
(R140, R143, R144). -/
def Health.outcome (h : Health) (pr : Profile) (good : Bool) : Health :=
  let h1 := h.counted good
  let f := h1.nowFaulted pr good
  { h1 with faulted := f, delta := h1.delta || (f != h.faulted), retry := if f && !h.faulted then pr.retry else h1.retry }

/-- The outcome of a refresh sequence goes to the panel's health; a change of its faulted flag raises PANEL FAULT CHANGE and
decides the link fault (R142 to R145). -/
def healthOutcome (p : PanelIx) (good : Bool) (s : State) : State :=
  let h := s.healthOf p
  let h' := h.outcome s.profile good
  let s' := s.setHealth p h'
  if h'.faulted = h.faulted then s' else decideLinkFault (panelLink p) (raise .panelFaultChange s')

/-! ### Bank adoption (R108, R109, R115) -/

/-- A panel of an adopting link: held content is discarded, its lantern record follows the route, and it is recomposed. -/
def adoptPanel (p : PanelIx) (s : State) : State :=
  rerouted p (s.setContent p { s.content p with held := none })

/-- The link adopts the selected bank and every panel of it is recomposed (R108). -/
def adopt (l : LinkIx) (s : State) : State :=
  forEach (linkPanels l) adoptPanel (s.setLink l { s.link l with bank := s.mgmt.selected })

/-- At a boundary a pending adoption is made (R108). -/
def adoptPending (l : LinkIx) (s : State) : State := if s.adoptionPending l then adopt l s else s

/-! ### The scheduler (R136 to R138) -/

/-- The addresses of a link in round-robin order: those after the last served address, 14 followed by 0 (R138). -/
def addressesAfter (a : Addr) : List Addr := (List.finRange 15).map fun i => a + 1 + i

/-- The panel of a class that comes first after the last served address (R138). -/
def State.firstOf (s : State) (l : LinkIx) (k : WorkClass) : Option PanelIx :=
  ((addressesAfter (s.link l).lastServed).map (panelAt l)).find? (s.inClass k)

/-- What a pick takes: the PHASE frame, or a panel with the class it is picked from (R137). -/
inductive Work where
  | phase
  | panel (k : WorkClass) (p : PanelIx)
deriving DecidableEq, Repr

/-- The work of the first non-empty class (R137). -/
def State.nextWork (s : State) (l : LinkIx) : Option Work :=
  match s.firstOf l .urgent with
  | some p => some (.panel .urgent p)
  | none =>
    if (s.link l).phasePending then some .phase
    else
      match s.firstOf l .ordinary with
      | some p => some (.panel .ordinary p)
      | none =>
        match s.firstOf l .keepAlive with
        | some p => some (.panel .keepAlive p)
        | none => (s.firstOf l .retry).map (.panel .retry)

/-- The copy a sequence is sent from (R130). -/
def State.copySequence (s : State) (k : WorkClass) (p : PanelIx) : Sequence :=
  let r := s.content p
  { panel := p, cls := k, version := r.version, urgent := r.content.urgent, kind := r.content.kind, chime := r.content.chime
    lines := r.content.lines.take (s.panelEntry p).lines }

/-- Begin a refresh sequence (R130, R138). -/
def beginSequence (l : LinkIx) (k : WorkClass) (p : PanelIx) (s : State) : State :=
  s.setLink l
    { s.link l with
      activity := .sendingSequence, sequence := some (s.copySequence k p), lastServed := panelAddr p }

/-- The phases and cycle counts a PHASE frame carries, as they stand (R135). -/
def State.phases (s : State) : List (Phase × Byte) := allTimers.map fun t => ((s.timer t).phase, (s.timer t).cycle)

/-- Begin the PHASE frame: the pending flag is cleared as sending begins (R99, R135). -/
def beginPhase (l : LinkIx) (s : State) : State :=
  s.setLink l { s.link l with activity := .sendingPhase, phasePending := false, phaseOnLine := some s.phases }

/-- A pick: only on a free line, and only where a class is not empty (R136). -/
def pick (l : LinkIx) (s : State) : State :=
  if (s.link l).free then
    match s.nextWork l with
    | none => s
    | some .phase => beginPhase l s
    | some (.panel k p) => beginSequence l k p s
  else s

/-- The picks due on lines that stand free, made when the event that brought the work has been taken (R136, log 5). -/
def pickAll (s : State) : State := forEach allLinks pick s

/-! ### Exercise frames and runs (R151 to R155) -/

/-- One step of a generator register: the exclusive-or of the two highest bits is shifted in (R152). -/
def lfsrStep {w : Nat} (r : BitVec w) : BitVec w × Bool :=
  let b := xor (r.getMsbD 0) (r.getMsbD 1)
  ((r <<< 1) ||| (if b then 1#w else 0#w), b)

/-- Eight steps make a byte, the first output bit its most significant bit (R152). -/
def lfsrByte {w : Nat} (r : BitVec w) : BitVec w × Byte :=
  (List.range 8).foldl (fun (x : BitVec w × Byte) _ =>
    let (r', b) := lfsrStep x.1
    (r', (x.2 <<< 1) ||| (if b then 1#8 else 0#8))) (r, 0)

/-- The generator's next byte (R152). -/
def Gen.next : Gen → Gen × Byte
  | .p7 r => let (r', b) := lfsrByte r; (.p7 r', b)
  | .p15 r => let (r', b) := lfsrByte r; (.p15 r', b)
  | .alt false => (.alt true, 0x55)
  | .alt true => (.alt false, 0xAA)

/-- The generator's next `n` bytes. -/
def Gen.take : Nat → Gen → Gen × List Byte
  | 0, g => (g, [])
  | n + 1, g =>
    let (g1, b) := g.next
    let (g2, bs) := Gen.take n g1
    (g2, b :: bs)

/-- The seed of a pattern (R152). -/
def Pattern.seed : Pattern → Gen
  | .p7 => .p7 (BitVec.allOnes 7)
  | .p15 => .p15 (BitVec.allOnes 15)
  | .alt => .alt false

/-- A frame of the run begins: frames sent counts it and it carries the next 16 bytes (R153). -/
def Exercise.sendFrame (x : Exercise) : Exercise :=
  let (g, bs) := Gen.take 16 x.gen
  { x with gen := g, framesSent := min (x.framesSent + 1) Config.exerciseMax, flight := some bs, awaiting := false }

/-- The next exercise frame begins. -/
def sendExercise (s : State) : State := s.setExercise s.exercise.sendFrame

/-- The first frame of a run waits for the END of a PHASE frame, or of an ABORT, on the line (R151, log 18). -/
def sendIfClear (l : LinkIx) (s : State) : State := if (s.link l).occupied then s else sendExercise s

/-- A run with start pending begins, or ends at once with cause URGENT where class 1 holds a panel (R151). -/
def beginRun (l : LinkIx) (s : State) : State :=
  let x := s.exercise
  if s.urgentWork l then
    raise .exerciseEnded
      (s.setExercise { x with startPending := false, state := .aborted, cause := .urgent, framesSent := 0 })
  else
    sendIfClear l
      ((s.setExercise { x with startPending := false, state := .running }).setLink l { s.link l with activity := .exercise })

/-- A moment at which the line has fallen free, or a START or BANK SELECT finds it at a boundary: a pending adoption first,
then a waiting run, then the scheduler's pick (R108, R136, R151). -/
def freeMoment (l : LinkIx) (s : State) : State :=
  let s := adoptPending l s
  let s := if s.exercise.startPending ∧ s.exercise.link = l then beginRun l s else s
  pick l s

/-- The exercise record after an outcome is counted: `errors` differing bytes of an echo, or a missing echo (R154). -/
def Exercise.counted (x : Exercise) (echo : Option (List Byte)) : Exercise :=
  let errors := match echo with
    | some bs => ((x.flight.getD []).zip bs).countP fun (a, b) => a != b
    | none => 0
  let bad := echo.isNone || errors != 0
  { x with
    errorBytes := min (x.errorBytes + errors) Config.exerciseMax
    missing := if echo.isNone then min (x.missing + 1) Config.counterMax else x.missing
    firstError := if x.firstError.isNone && bad then some x.framesSent else x.firstError
    flight := none, awaiting := false }

/-- The end of a run: the line is free, EXERCISE ENDED is raised, and the line's free moment follows (R155, R158). -/
def endRun (state : ExState) (cause : EndCause) (s : State) : State :=
  let x := s.exercise
  let l := x.link
  let s := s.setExercise { x with state := state, cause := cause, endRequested := false }
  let s := s.setLink l { s.link l with activity := .idleFill }
  freeMoment l (raise .exerciseEnded s)

/-- The outcome of an exercise frame (R154, R155): the window's last frame ends the run DONE, a requested end ends it ABORTED,
and otherwise a pending adoption is made and the next frame begins (R157). -/
def exerciseOutcome (echo : Option (List Byte)) (s : State) : State :=
  let x := s.exercise.counted echo
  let s := s.setExercise x
  if x.window.frames = some x.framesSent then endRun .done .window s
  else if x.endRequested then endRun .aborted x.cause s
  else sendExercise (adoptPending x.link s)

/-! ### Ends of sequences (R131, R132) -/

/-- The line after a sequence: IDLE-FILL, nothing in flight (R131). -/
def lineDone (l : LinkIx) (s : State) : State := s.setLink l { s.link l with activity := .idleFill, sequence := none }

/-- The retry countdown is loaded at the end of every class 5 sequence (R140). -/
def reloadRetry (q : Sequence) (s : State) : State :=
  if q.cls = .retry then s.setHealth q.panel { s.healthOf q.panel with retry := s.profile.retry } else s

/-- A sequence that ends as a miss (R131). -/
def endMiss (l : LinkIx) (q : Sequence) (s : State) : State :=
  freeMoment l (reloadRetry q (healthOutcome q.panel false (bump .panelMisses (lineDone l s))))

/-- Step 1 of R132: the acknowledged version. -/
def ContentRec.acknowledge (r : ContentRec) (q : Sequence) (a : Byte) : ContentRec :=
  if a = q.version then { r with acked := some a, ackedUrgent := q.urgent }
  else if a = r.version then { r with acked := none }
  else { r with acked := some a }

/-- Step 3 of R132: the kind the ACK reports against the panel table (R133), and its status. -/
def ackKind (p : PanelIx) (kind status : Byte) (s : State) : State :=
  let h := s.healthOf p
  let differs := PanelKind.ofCode kind.toNat != some (s.panelEntry p).kind
  let s' := s.setHealth p
    { h with kindMismatch := differs, lampFault := status.getLsbD 0, tempWarning := status.getLsbD 1 }
  if differs && !h.kindMismatch then raise .kindMismatch s' else s'

/-- Step 4 of R132: a good loads the keep-alive countdown (R139). -/
def reloadKeepAlive (p : PanelIx) (good : Bool) (s : State) : State :=
  if good then s.setHealth p { s.healthOf p with keepAlive := s.profile.keepAlive } else s

/-- An ACK of version `a` taken for the sequence: all of R132, a chime's delivery included, and then the line's free moment with
a pending adoption (the model's choice, log 29). -/
def takeAck (l : LinkIx) (q : Sequence) (a kind status : Byte) (s : State) : State :=
  let p := q.panel
  let good := a == q.version
  let s := lineDone l s
  let s := s.setContent p ((s.content p).acknowledge q a)
  let s := healthOutcome p good (if good then s else bump .panelMisses s)
  let s := ackKind p kind status s
  let s := reloadRetry q (reloadKeepAlive p good s)
  freeMoment l (deliverChime p a s)

/-! ### Replies in a window (R131, R153) -/

/-- A reply frame judged as an ACK of the panel: its check, its length, its kind and its address (R131, R194). -/
def judgeAck (p : PanelIx) (data : List Byte) : Option (Byte × Byte × Byte) :=
  match data with
  | [k, a, v, kind, status, _, _] =>
    if crcPasses data && k == 0x08 && a.toNat == (panelAddr p).val then some (v, kind, status) else none
  | _ => none

/-- A reply frame judged as an echo: kind, address and payload length; its check plays no part (R153, R194). -/
def judgeEcho (x : Exercise) (data : List Byte) : Option (List Byte) :=
  match data with
  | k :: a :: rest =>
    if k == 0x09 && a.toNat == x.panel.val && rest.length == 18 then some (rest.take 16) else none
  | _ => none

/-- The exercise frame in flight on the link is awaiting its echo (R153). -/
def State.awaitingEcho (s : State) (l : LinkIx) : Bool := s.exerciseInFlight l && s.exercise.awaiting

/-- A frame received complete in a reply window: of a sequence, an ACK or a miss; of an exercise frame, an echo or a missing
echo. Outside a window nothing is received (R127). More than 20 data characters break the frame (R127). -/
def replyComplete (l : LinkIx) (data : List Byte) (s : State) : State :=
  let k := s.link l
  match k.activity, k.sequence with
  | .awaitingAck, some q =>
    match judgeAck q.panel data with
    | some (v, kind, status) => takeAck l q v kind status s
    | none => endMiss l q s
  | _, _ => if s.awaitingEcho l then exerciseOutcome (judgeEcho s.exercise data) s else s

/-- A reply window that ends with no usable frame: a miss, or a missing echo (R131, R153). -/
def replyMissing (l : LinkIx) (s : State) : State :=
  let k := s.link l
  match k.activity, k.sequence with
  | .awaitingAck, some q => endMiss l q s
  | _, _ => if s.awaitingEcho l then exerciseOutcome none s else s

/-! ### Frames the part has sent -/

/-- The END of a sequence's last LINE: the reply window opens (R130, R131). -/
def lastLine (l : LinkIx) (s : State) : State :=
  if (s.link l).activity = .sendingSequence ∧ (s.link l).sequence.isSome then
    s.setLink l { s.link l with activity := .awaitingAck } else s

/-- The END of an exercise frame: its reply window opens (R153). -/
def exerciseSent (l : LinkIx) (s : State) : State :=
  if s.exerciseInFlight l then s.setExercise { s.exercise with awaiting := true } else s

/-- What follows when a PHASE frame or an ABORT has gone out: a run begun meanwhile sends its first frame (R151); otherwise
the line is free. -/
def lineCleared (l : LinkIx) (s : State) : State :=
  if s.exercise.state = .running ∧ s.exercise.link = l then sendExercise s
  else freeMoment l (s.setLink l { s.link l with activity := .idleFill })

/-- The END of a PHASE frame (R135). -/
def phaseEnd (l : LinkIx) (s : State) : State :=
  if (s.link l).phaseOnLine.isSome then lineCleared l (s.setLink l { s.link l with phaseOnLine := none }) else s

/-- The ABORT of a NODE RESET has gone out (R148). -/
def abortSent (l : LinkIx) (s : State) : State :=
  if (s.link l).aborting then lineCleared l (s.setLink l { s.link l with aborting := false }) else s

/-! ### The housekeeping tick on the links (R139, R140) -/

/-- The keep-alive countdown runs for an enabled, unfaulted, clean panel (R139). -/
def State.keepAliveRuns (s : State) (p : PanelIx) : Bool :=
  (s.panelEntry p).enabled && !(s.healthOf p).faulted && !(s.content p).dirty

/-- The retry countdown runs for an enabled, faulted panel (R140). -/
def State.retryRuns (s : State) (p : PanelIx) : Bool := (s.panelEntry p).enabled && (s.healthOf p).faulted

/-- The tick on one panel's countdowns. -/
def tickPanel (p : PanelIx) (s : State) : State :=
  let h := s.healthOf p
  if s.keepAliveRuns p then s.setHealth p { h with keepAlive := h.keepAlive - 1 }
  else if s.retryRuns p then s.setHealth p { h with retry := h.retry - 1 }
  else s

/-- The tick on every panel. -/
def tickPanels (s : State) : State := forEach allPanels tickPanel s

/-- One panel's keep-alive countdown reaches 0 (R139, log 4). -/
def keepAliveDue (p : PanelIx) (s : State) : State :=
  let h := s.healthOf p
  if s.keepAliveRuns p ∧ h.keepAlive = 1 then s.setHealth p { h with keepAlive := 0 } else s

/-- One faulted panel's retry countdown reaches 0 (R140, log 4). -/
def retryDue (p : PanelIx) (s : State) : State :=
  let h := s.healthOf p
  if s.retryRuns p ∧ h.retry = 1 then s.setHealth p { h with retry := 0 } else s

/-! ### Exercise requests (R150, R155, R156) -/

/-- A START accepted: the record takes the request and is seeded, and its results return to their power-on values (R150). -/
def startedExercise (l : LinkIx) (a : Addr) (p : Pattern) (w : Window) : Exercise :=
  { Exercise.powerOn with startPending := true, link := l, panel := a, pattern := p, window := w, gen := p.seed }

/-- A run with start pending ends at once (R155, R156). -/
def cancelStart (cause : EndCause) (s : State) : State :=
  raise .exerciseEnded
    (s.setExercise { s.exercise with startPending := false, state := .aborted, cause := cause, framesSent := 0 })

/-- STOP or PANEL DISABLED taken (R155, R156). -/
def stopExercise (cause : EndCause) (s : State) : State :=
  if s.exercise.startPending then cancelStart cause s else requestEnd cause s

/-- A panel entry stored (R105): the exercise on a panel stored disabled ends, the lantern record follows, the panel is
recomposed, and the link fault is decided (R145, R155). -/
def panelStored (p : PanelIx) (s : State) : State :=
  let x := s.exercise
  let s := rerouted p s
  let s := if !(s.panelEntry p).enabled && panelAt x.link x.panel == p then stopExercise .panelDisabled s else s
  decideLinkFault (panelLink p) s

end Sys2Proof.Machine
end

