-- ==== Sys2Proof/Machine/Merger.lean ====
section
/-! DEFINITION. The picks that follow an event: what the free U transmitter sends next (R168, R182), after the picks of the panel
links (R136). -/

namespace Sys2Proof.Machine

/-- A node address or alert frame header uses the address as source (R169). -/
def State.address (s : State) : Byte := byteOf s.mgmt.address

/-- An ALERT: the ten flags and the newly raised set (R182, R188); its tag is 0. -/
def alertFrame (s : State) : UpFrame :=
  { kind := kindAlert, source := s.address, tag := 0
    payload := bytes2 s.mgmt.flags.toNat ++ bytes2 s.mgmt.newly.toNat }

/-! ### The U transmitter's pick (R168, R182) -/

/-- Begin the own REPLY: it is no longer pending (log 14). -/
def beginReply (f : UpFrame) (s : State) : State := s.setUp { s.up with reply := none, tx := some (.reply f) }

/-- Begin the own ALERT: it carries flags and newly raised set as they stand, and the set is emptied (R182). -/
def beginAlert (s : State) : State :=
  let f := alertFrame s
  let s := s.setMgmt { s.mgmt with newly := 0 }
  s.setUp { s.up with tx := some (.alert f) }

/-- Begin the oldest kept frame. -/
def beginReturn (i : Fin 2) (rest : List (Fin 2)) (s : State) : State :=
  s.setUp { s.up with order := rest, tx := some (.returned i) }

/-- The free transmitter picks (R168). -/
def pickUp (s : State) : State :=
  if s.up.tx.isSome then s
  else
    match s.up.reply with
    | some f => beginReply f s
    | none =>
      match s.up.order, s.mgmt.alertPending with
      | [], false => s
      | [], true => beginAlert s
      | i :: rest, false => beginReturn i rest s
      | i :: rest, true => if s.up.turn = .alert then beginAlert s else beginReturn i rest s

/-- What follows every event, the arrival of a character being one (00 section 4.6): the picks of lines that stand free with work,
and of the transmitter (log 5). -/
def settle (s : State) : State := pickUp (pickAll s)

end Sys2Proof.Machine
end

