-- ==== Sys2Proof/Machine/Store.lean ====
section
/-! DEFINITION. The table store and the write rule (R172 to R176): storing an entry with its owner's effects, and a table
write as its characters arrive. -/

namespace Sys2Proof.Machine

/-! ### One entry stored -/

/-- A route entry stored into a bank: it acts only where that bank is in use on the panel's link (R109). -/
def routeStored (bank : Bank) (p : PanelIx) (s : State) : State :=
  if (s.link (panelLink p)).bank = bank then rerouted p s else s

/-- The owner of a table acts on the entry stored at index `i`; `before` is the state before the store (R172, R124). -/
def ownerActs (t : Fin 11) (i : Nat) (before : State) (s : State) : State :=
  match t with
  | 0 => recomposeEnabled s
  | 1 => trackerStored (fun _ k => k.floor.val == i) s
  | 2 => let c : CarIx := clampIndex 24 i; carStored c (before.carEntry c) s
  | 3 => trackerStored (fun _ _ => false) s
  | 4 => let k : KioskIx := clampIndex 32 i; kioskStored k (before.kioskEntry k) s
  | 5 => panelStored (clampIndex 120 i) s
  | 6 => routeStored .a (clampIndex 120 i) s
  | 7 => routeStored .b (clampIndex 120 i) s
  | 8 => recomposeEnabled s
  | 9 => noticeStored (clampIndex 16 i) before s
  | 10 => let n : TimerIx := clampIndex 4 i; cadenceStored n (before.cadenceEntry n) s

/-- Store an entry's bytes at an index of a table: every field in range, each change counted, and the owner told (R172). -/
def storeEntry (t : Fin 11) (i : Nat) (bs : List Byte) (s : State) : State :=
  let r := s.tables.store t i bs
  ownerActs t i s (bumpN .clampedFields r.2 (s.setTables r.1))

/-- The pointer after an index: the next one, from the table's last back to 0 (R174). -/
def nextPointer (t : Fin 11) (i : Nat) : Nat := if i + 1 < entryCount t then i + 1 else 0

/-- Store an entry at the open write's pointer and move the pointer (R174). -/
def storeAtPointer (bs : List Byte) (s : State) : State :=
  match s.mgmt.openWrite with
  | none => s
  | some w => storeEntry w.table w.pointer bs (s.setMgmt { s.mgmt with openWrite := some { w with pointer := nextPointer w.table w.pointer } })

/-- Close the open write (R173, R176). -/
def closeWrite (s : State) : State := s.setMgmt { s.mgmt with openWrite := none }

/-! ### A table write as its characters arrive (R173, R174) -/

/-- Give the receiver its table write. -/
def putWrite (w : WriteRx) (s : State) : State := s.setRx { s.rx with write := w }

/-- A TABLE CONTINUE begins to be received: it stores at the open write; where it finds none its entries are checked only, taken to
be of the size that a table of the free value gives (R176, log 16). -/
def continueBegins (s : State) : State :=
  if s.mgmt.openWrite.isSome then putWrite { WriteRx.fresh with stage := .entries } s
  else putWrite { WriteRx.fresh with stage := .noWrite (entrySize (Config.closedTable s.draws)) } (s.setDraws (s.draws + 1))

/-- The table id arrives. One of 11 or more ends the request's effect on the tables; the open write it closes stays as it was
until the start index too has arrived or the frame ends well, since a frame broken or found bad before leaves it (R173, log 30). -/
def tableIdArrives (b : Byte) (s : State) : State :=
  putWrite { s.rx.write with stage := .startIndex (indexOf 11 b.toNat) } s

/-- The start index arrives: any open write is closed, and one is opened where the table and the index are in range (R173). -/
def startIndexArrives (t : Option (Fin 11)) (b : Byte) (s : State) : State :=
  match t with
  | none => putWrite { s.rx.write with stage := .badTable } (closeWrite s)
  | some t =>
    if b.toNat < entryCount t then
      putWrite { s.rx.write with stage := .entries }
        (s.setMgmt { s.mgmt with openWrite := some { table := t, pointer := b.toNat } })
    else putWrite { s.rx.write with stage := .badRange } (closeWrite s)

/-- An entry and its CRC-8 have arrived (R174): a failing entry is discarded with every later byte and raises ENTRY CHECK
FAILED; a passing one is stored, or held while dispatch loss is asserted. -/
def entryArrives (entry : List Byte) (check : Byte) (s : State) : State :=
  let w := s.rx.write
  if crc8 entry != check then raise .entryCheckFailed (putWrite { w with stage := .failed, buf := [] } s)
  else if s.loss.asserted then putWrite { w with buf := [], held := w.held ++ [entry] } s
  else storeAtPointer entry (putWrite { w with buf := [], stored := w.stored + 1 } s)

/-- An entry and its CRC-8 have arrived in a TABLE CONTINUE that found no write open: it is checked but not stored (R176), and one
that fails is discarded with every later byte and raises ENTRY CHECK FAILED (R174). -/
def unstoredEntryArrives (entry : List Byte) (check : Byte) (s : State) : State :=
  let w := s.rx.write
  if crc8 entry != check then raise .entryCheckFailed (putWrite { w with stage := .noWriteFailed, buf := [] } s)
  else putWrite { w with buf := [] } s

/-- The size of the open write's entries; 0 with no write open. -/
def openEntrySize (s : State) : Nat := (s.mgmt.openWrite.map fun w => entrySize w.table).getD 0

/-- One payload character of a TABLE WRITE or TABLE CONTINUE arrives (R173, R174, R176). The character that ends an entry is an event
of its own, which may bring the links work and the transmitter an ALERT: the picks follow it at once (R136, R168, log 5). -/
def writeByte (b : Byte) (s : State) : State :=
  let w := s.rx.write
  match w.stage with
  | .tableId => tableIdArrives b s
  | .startIndex t => startIndexArrives t b s
  | .entries =>
    if w.buf.length < openEntrySize s then putWrite { w with buf := w.buf ++ [b] } s
    else settle (entryArrives w.buf b s)
  | .noWrite size =>
    if w.buf.length < size then putWrite { w with buf := w.buf ++ [b] } s
    else settle (unstoredEntryArrives w.buf b s)
  | .badTable | .badRange | .failed | .noWriteFailed => s

/-- The payload characters of a table write arrive in order. -/
def writeBytes (bs : List Byte) (s : State) : State := forEach bs writeByte s

/-- The entries held during dispatch loss are stored in order, at the END that ended the loss (R174); the END is one event, whose
picks follow it (log 5). -/
def storeHeld (s : State) : State :=
  let w := s.rx.write
  forEach w.held storeAtPointer (putWrite { w with held := [], stored := w.stored + w.held.length } s)

/-- Whether the payload after the table id and start index is whole entries, each with its CRC-8 (R175). -/
def wholeEntries (s : State) (entryBytes : Nat) : Bool := entryBytes % (openEntrySize s + 1) == 0

/-- The result of a TABLE WRITE or TABLE CONTINUE whose frame ended well (R173, R175, R176; priorities: log 17). A frame that
ends before the start index arrives gives BAD LENGTH. -/
def writeResult (s : State) (payloadLength : Nat) (isContinue : Bool) : Result :=
  if !isContinue && payloadLength < 2 then .badLength
  else
    match s.rx.write.stage with
    | .badTable => .badTable
    | .badRange => .badRange
    | .noWrite _ | .noWriteFailed => .noContinuation
    | .failed => .entryCheck
    | .tableId | .startIndex _ => .badLength
    | .entries =>
      if wholeEntries s (if isContinue then payloadLength else payloadLength - 2) then .accepted else .badLength

/-- The data of its REPLY: entries stored by this frame, table id and pointer of the open write (R188). -/
def writeData (s : State) : List Byte :=
  match s.mgmt.openWrite with
  | some w => [byteOf s.rx.write.stored, byteOf w.table.val, byteOf w.pointer]
  | none => [byteOf s.rx.write.stored, 255, 255]

end Sys2Proof.Machine
end

