-- ==== Sys2Proof/Machine/Reports.lean ====
section
/-! DEFINITION. What a REPLY reports: the alerts summary (R188), the entries of a TABLE READ (R177), and the items of STATE
READ (R178, R189). -/

namespace Sys2Proof.Machine

/-- The alerts summary: the ten flags, with bit 15 set while an ALERT is pending (R171, R188). -/
def Mgmt.summary (m : Mgmt) : List Byte := bytes2 (m.flags.toNat + if m.alertPending then 32768 else 0)

/-- A REPLY (R171, R188): the kind answered, the result, the alerts summary as it stands, and the data. -/
def replyFrame (s : State) (tag kind : Byte) (r : Result) (data : List Byte) : UpFrame :=
  { kind := kindReply, source := s.address, tag := tag, payload := [kind, byteOf r.code] ++ s.mgmt.summary ++ data }

/-! ### TABLE READ (R177) -/

/-- Number of entries a TABLE READ returns. -/
def readCount (t : Fin 11) (start count : Nat) : Nat :=
  min count (min (entryCount t - start) (Config.readBytesMax / entrySize t))

/-- The data of its reply: table id, start index, number of entries, the entries as stored. -/
def readData (s : State) (t : Fin 11) (start count : Nat) : List Byte :=
  let n := readCount t start count
  [byteOf t.val, byteOf start, byteOf n] ++ (List.range n).flatMap fun i => s.tables.entryBytes t (start + i)

/-! ### STATE READ (R178, R189) -/

/-- The five bytes of a timer. -/
def Timer.report (t : Timer) : List Byte :=
  bytes2 t.count ++ [byteOf t.phase.code, t.cycle, flagByte [t.running, t.armed]]

/-- NODE: 35 bytes. -/
def nodeData (s : State) : List Byte :=
  [s.address, byteOf s.mgmt.strap.toNat, byteOf s.mgmt.selected.code, byteOf (flagNat s.loss.asserted), byteOf s.loss.countdown]
    ++ (match s.mgmt.openWrite with
        | some w => [byteOf w.table.val, byteOf w.pointer]
        | none => [255, 255])
    ++ allTimers.flatMap (fun t => (s.timer t).report)
    ++ [flagByte (allLinks.map fun l => (s.link l).fault)]
    ++ bytes2 s.mgmt.flags.toNat ++ bytes2 s.mgmt.mask.toNat ++ [byteOf (flagNat s.mgmt.alertPending)] ++ bytes2 s.mgmt.newly.toNat

/-- CAR: 19 bytes. -/
def carData (s : State) (c : CarIx) : List Byte :=
  let r := s.car c
  let deck (d : DeckRec) : List Byte := [floorByte d.floor, byteOf (flagNat d.atFloor), floorByte d.openFloor]
  [byteOf c.val, flagByte [r.present, r.stale, r.snapPending]] ++ bytes3 r.position ++ int16Bytes r.velocity
    ++ [byteOf r.entrance.code, byteOf r.mode.code, byteOf r.direction.code, floorByte r.nextStop]
    ++ deck r.lower ++ deck r.upper ++ [byteOf r.recDir.code, byteOf r.staleCountdown]

/-- The nine bytes of a prompt record. -/
def Prompt.report (r : Prompt) : List Byte :=
  bytes2 r.ticket.toNat
    ++ [byteOf r.destination.val, byteOf r.car.val, byteOf r.deck.code, byteOf r.cls.code, byteOf r.hold, byteOf r.marker
       , byteOf (flagNat r.withdrawn)]

/-- KIOSK (R68): 3 bytes and 9 for each record, front to back. -/
def kioskData (s : State) (k : KioskIx) : List Byte :=
  [byteOf k.val, byteOf (flagNat (s.kioskClosed k)), byteOf (s.queue k).length] ++ (s.queue k).flatMap Prompt.report

/-- The zones covered by an active EVACUATION or RECALL notice, bit z for zone z (R85). -/
def zoneCoverage (s : State) : Nat := (List.finRange 16).foldl (fun n z => n + if s.zoneClosed z then 2 ^ z.val else 0) 0

/-- NOTICES (R85). -/
def noticesData (s : State) : List Byte :=
  [byteOf s.ranked.length]
    ++ s.ranked.flatMap (fun n => [byteOf n.val, byteOf (s.noticeEntry n).cls.code])
    ++ bytes2 (zoneCoverage s)

/-- EXERCISE (R158): 21 bytes. -/
def exerciseData (s : State) : List Byte :=
  let x := s.exercise
  [byteOf x.state.code, flagByte [x.startPending, x.endRequested, x.firstError.isSome], byteOf x.link.val, byteOf x.panel.val
  , byteOf x.pattern.code, byteOf x.window.code]
    ++ bytes4 x.framesSent ++ bytes4 x.errorBytes ++ bytes2 x.missing ++ bytes4 (x.firstError.getD 0) ++ [byteOf x.cause.code]

/-- The panels a PANELS read reports: `count` from `first`, up to panel 119 (R178). -/
def panelRange (first count : Nat) : List PanelIx := (List.range count).filterMap fun i => indexOf 120 (first + i)

/-- The nine bytes of a panel (R125, R147, R189). -/
def panelReport (s : State) (p : PanelIx) : List Byte :=
  let r := s.content p
  let h := s.healthOf p
  [byteOf r.content.kind.code
  , flagByte [r.content.urgent, r.dirty, r.mismatch, r.held.isSome, h.faulted, h.delta, h.kindMismatch, r.acked.isNone]
  , r.version, r.acked.getD 0, byteOf h.misses, byteOf h.goods, flagByte [h.lampFault, h.tempWarning]]
    ++ (match s.lantern p with
        | none => [0, 0]
        | some k => [byteOf k.state.code, byteOf (k.chime.code + 4 * flagNat k.given)])

/-- The four bytes of a link (R125, R147, R189). -/
def linkReport (s : State) (l : LinkIx) : List Byte :=
  let k := s.link l
  [byteOf l.val, flagByte [k.bank == .b, s.adoptionPending l, k.phasePending, k.fault], byteOf k.activity.code
  , match k.sequence with
    | some q => byteOf (panelAddr q.panel).val
    | none => 255]

/-- The links a range of panels touches, in order. -/
def rangeLinks (ps : List PanelIx) : List LinkIx := allLinks.filter fun l => ps.any fun p => panelLink p == l

/-- PANELS (R125, R147). -/
def panelsData (s : State) (first count : Nat) : List Byte :=
  let ps := panelRange first count
  let ls := rangeLinks ps
  [byteOf first, byteOf ps.length] ++ ps.flatMap (panelReport s) ++ [byteOf ls.length] ++ ls.flatMap (linkReport s)

/-- A PANELS read, its reply built, clears the delta flags of the panels it reported (R147). -/
def clearDeltas (first count : Nat) (s : State) : State :=
  forEach (panelRange first count) (fun p s => s.setHealth p { s.healthOf p with delta := false }) s

end Sys2Proof.Machine
end

