-- ==== Sys2Proof/Machine/Resets.lean ====
section
/-! DEFINITION. The resets: NODE RESET (R184, with R102, R126, R148, R159), the power-on reset, and the reset pin held low
(R183). -/

namespace Sys2Proof.Machine

/-! ### NODE RESET -/

/-- A frame is in flight on the line: of a refresh sequence, a PHASE frame, or an exercise frame not yet at its END (R148). -/
def State.frameOnLine (s : State) (l : LinkIx) : Bool :=
  ((s.link l).sequence.isSome && (s.link l).activity == .sendingSequence) || (s.link l).phaseOnLine.isSome
    || (s.exerciseInFlight l && !s.exercise.awaiting)

/-- A link after NODE RESET: a frame in flight is being ended with ABORT, and the line activity is kept until it has gone out
(log 18); the link stands in the selected bank (R148, R108). -/
def cutLink (l : LinkIx) (s : State) : State :=
  let k := s.link l
  let cut := k.aborting || s.frameOnLine l
  s.setLink l
    { activity := if cut then k.activity else .idleFill, sequence := none, phaseOnLine := none, aborting := cut
      phasePending := false, lastServed := 14, fault := false, bank := s.mgmt.selected }

/-- The management unit after NODE RESET: address, straps, selected bank and mask are kept (R184). -/
def Mgmt.nodeReset (m : Mgmt) : Mgmt :=
  { m with openWrite := none, counters := .replicate 16 0, flags := 0, newly := 0 }

/-- Every cadence timer restarts from its entry (R102). -/
def restartTimers (s : State) : State := forEach allTimers (fun t s => s.setTimer t (restartTimer (s.cadenceEntry t))) s

/-- What NODE RESET clears and restarts, before the composer's work (R184). -/
def clearNode (s : State) : State :=
  let s := forEach allLinks cutLink s
  let s := { s with
    cars := .replicate 24 .powerOn, queues := .replicate 32 [], active := .replicate 16 false
    lanterns := .replicate 120 none, health := .replicate 120 .powerOn, exercise := .powerOn
    loss := { asserted := false, countdown := s.profile.lossTimeout }, mgmt := s.mgmt.nodeReset }
  restartTimers s

/-- A content record as NODE RESET hands it to its recomposition: no held content, acknowledged version NONE, acknowledged
urgent and route mismatch clear; the version is kept (R126). -/
def ContentRec.nodeReset (r : ContentRec) : ContentRec :=
  { r with acked := none, ackedUrgent := false, held := none, mismatch := false }

/-- The panel's lantern record begins where R30 is met, and the panel is recomposed (R31, R126). -/
def resetPanel (p : PanelIx) (s : State) : State := rerouted p (s.setContent p (s.content p).nodeReset)

/-- After the recomposition a link holds a pending PHASE frame exactly where its enabled panels reference a timer (R102). -/
def resetPhasePending (l : LinkIx) (s : State) : State :=
  s.setLink l { s.link l with phasePending := allTimers.any (s.linkReferences l) }

/-- NODE RESET (R184). -/
def nodeResetState (s : State) : State :=
  forEach allLinks resetPhasePending (forEach allPanels resetPanel (clearNode s))

/-! ### The reset pin (R183) -/

/-- A power-on reset with the given straps; what is the model's own stays: the commands that wait, and the count of the free values
taken (log 16). -/
def powerOn (straps : BitVec 6) (s : State) : State := { State.powerOn straps with pending := s.pending, draws := s.draws }

/-- A link whose frames are cut off without an ABORT. -/
def Link.silenced (k : Link) : Link :=
  { k with activity := .idleFill, sequence := none, phaseOnLine := none, aborting := false }

/-- The pin is driven low: every frame being sent or received is cut off and no run goes on, and until release nothing is sent
or taken. What else the part stores is kept until the release returns it to its power-on values (log 20). -/
def pinLow (s : State) : State :=
  { s with
    inReset := true, rx := .outside, cport := { s.cport with line := [], extra := 0 }, up := .powerOn
    links := s.links.map Link.silenced, exercise := .powerOn }

end Sys2Proof.Machine
end

