-- ==== Sys2Proof/Machine/Mgmt.lean ====
section
/-! DEFINITION. The management requests as the management unit takes them (R171): each request's own checks, its effect, and
its REPLY. -/

namespace Sys2Proof.Machine

/-! ### Answering (R171) -/

/-- A request to this node is answered by one REPLY, built from the state as it stands; one to all nodes by none. -/
def answer (dest : Dest) (tag kind : Byte) (r : Result) (data : List Byte) (s : State) : State :=
  match dest with
  | .all => s
  | .own => s.setUp { s.up with reply := some (replyFrame s tag kind r data) }

/-- A request to this node taken while a REPLY is pending is not carried out, gets no reply and counts a return drop; any
other is worked. -/
def request (dest : Dest) (work : State → State) (s : State) : State :=
  if dest = .own ∧ s.up.reply.isSome then bump .returnDrops s else work s

/-- A request that asks for an answer: to all nodes it is not acted on and counts a bad target. -/
def asking (dest : Dest) (work : State → State) (s : State) : State :=
  match dest with
  | .all => bump .badTargets s
  | .own => request .own work s

/-- A request other than TABLE WRITE and TABLE CONTINUE, whose payload is judged by `parse`: the open write is closed (R176),
a payload that is not of the length gives BAD LENGTH, and otherwise the request is worked. -/
def closing {α : Type} (dest : Dest) (tag kind : Byte) (parse : Option α) (work : α → State → State) (s : State) : State :=
  match parse with
  | none => answer dest tag kind .badLength [] (closeWrite s)
  | some x => work x (closeWrite s)

/-! ### TABLE WRITE and TABLE CONTINUE (R173, R175, R176) -/

/-- The payload is a table id alone, out of range: its arrival closes the open write once its frame has ended well (R173,
log 30). -/
def idAloneCloses : List Byte → Bool
  | [id] => (indexOf 11 id.toNat).isNone
  | _ => false

/-- A TABLE WRITE whose frame ended well: one that ended before its start index closes the open write (R173), which a table id
out of range does even where the request is refused for its pending REPLY (R176). -/
def tableWriteRequest (dest : Dest) (tag : Byte) (payload : List Byte) (s : State) : State :=
  request dest (fun s =>
    let r := writeResult s payload.length false
    let s := if payload.length < 2 then closeWrite s else s
    answer dest tag kindTableWrite r (writeData s) s) (if idAloneCloses payload then closeWrite s else s)

/-- A TABLE CONTINUE whose frame ended well. -/
def tableContinueRequest (dest : Dest) (tag : Byte) (payload : List Byte) (s : State) : State :=
  request dest (fun s => answer dest tag kindTableContinue (writeResult s payload.length true) (writeData s) s) s

/-! ### Reads (R177, R178, R180) -/

/-- One, two, three or four bytes of payload, or not that length. -/
def payload1 : List Byte → Option Byte
  | [a] => some a
  | _ => none
def payload2 : List Byte → Option (BitVec 16)
  | [a, b] => some (a ++ b)
  | _ => none
def payload3 : List Byte → Option (Byte × Byte × Byte)
  | [a, b, c] => some (a, b, c)
  | _ => none
def payload4 : List Byte → Option (Byte × Byte × Byte × Byte)
  | [a, b, c, d] => some (a, b, c, d)
  | _ => none
def payload0 : List Byte → Option Unit
  | [] => some ()
  | _ => none

/-- The judgement of a TABLE READ (R177). -/
def judgeRead (table start count : Byte) : Except Result (Fin 11) :=
  match indexOf 11 table.toNat with
  | none => .error .badTable
  | some t =>
    if entryCount t ≤ start.toNat then .error .badRange
    else if count.toNat = 0 then .error .badValue
    else .ok t

/-- TABLE READ (R177). -/
def tableReadRequest (dest : Dest) (tag : Byte) (payload : List Byte) (s : State) : State :=
  asking dest (closing dest tag kindTableRead (payload3 payload) fun (table, start, count) s =>
    match judgeRead table start count with
    | .error r => answer dest tag kindTableRead r [] s
    | .ok t => answer dest tag kindTableRead .accepted (readData s t start.toNat count.toNat) s) s

/-- What a STATE READ of an item answers: a refusal, or the item's data (R178). -/
def stateItem (s : State) (item index count : Byte) : Except Result (List Byte) :=
  match item.toNat with
  | 0 => .ok (nodeData s)
  | 1 =>
    if 120 ≤ index.toNat then .error .badRange
    else if count.toNat = 0 ∨ 15 < count.toNat then .error .badValue
    else .ok (panelsData s index.toNat count.toNat)
  | 2 =>
    match indexOf 24 index.toNat with
    | none => .error .badRange
    | some c => .ok (carData s c)
  | 3 =>
    match indexOf 32 index.toNat with
    | none => .error .badRange
    | some k => .ok (kioskData s k)
  | 4 => .ok (noticesData s)
  | 5 => .ok (exerciseData s)
  | _ => .error .badValue

/-- STATE READ (R178): the reply, and after it the delta flags of a PANELS read cleared (R147). -/
def stateReadRequest (dest : Dest) (tag : Byte) (payload : List Byte) (s : State) : State :=
  asking dest (closing dest tag kindStateRead (payload3 payload) fun (item, index, count) s =>
    match stateItem s item index count with
    | .error r => answer dest tag kindStateRead r [] s
    | .ok data =>
      let s := answer dest tag kindStateRead .accepted (item :: data) s
      if item.toNat = 1 then clearDeltas index.toNat count.toNat s else s) s

/-- The sixteen counters as a COUNTER READ reports them (R180, R188). -/
def counterData (m : Mgmt) : List Byte := m.counters.toList.flatMap bytes2

/-- COUNTER READ (R180). -/
def counterReadRequest (dest : Dest) (tag : Byte) (payload : List Byte) (s : State) : State :=
  asking dest (closing dest tag kindCounterRead (payload1 payload) fun choice s =>
    match choice.toNat with
    | 0 => answer dest tag kindCounterRead .accepted (counterData s.mgmt) s
    | 1 =>
      let s := answer dest tag kindCounterRead .accepted (counterData s.mgmt) s
      s.setMgmt { s.mgmt with counters := .replicate 16 0 }
    | _ => answer dest tag kindCounterRead .badValue [] s) s

/-! ### BANK SELECT (R107, R108, R179) -/

/-- The controllers are told: a link at a boundary adopts at once (R108). -/
def bankSelected (s : State) : State := forEach (allLinks.filter s.atBoundary) adoptPending s

/-- BANK SELECT. -/
def bankSelectRequest (dest : Dest) (tag : Byte) (payload : List Byte) (s : State) : State :=
  request dest (closing dest tag kindBankSelect (payload1 payload) fun b s =>
    match Bank.ofCode b.toNat with
    | none => answer dest tag kindBankSelect .badValue [] s
    | some bank =>
      bankSelected (answer dest tag kindBankSelect .accepted [] (s.setMgmt { s.mgmt with selected := bank }))) s

/-! ### Alerts (R181, R182) -/

/-- ALERT MASK: the ten enables replace the mask; set flags newly enabled join the newly raised set, disabled ones leave. -/
def Mgmt.setMask (m : Mgmt) (enables : BitVec 10) : Mgmt :=
  { m with mask := enables, newly := (m.newly ||| (m.flags &&& enables &&& ~~~m.mask)) &&& enables }

/-- ALERT CLEAR: the named flags are cleared and leave the newly raised set. -/
def Mgmt.clearFlags (m : Mgmt) (named : BitVec 10) : Mgmt :=
  { m with flags := m.flags &&& ~~~named, newly := m.newly &&& ~~~named }

/-- ALERT MASK; bits 10 to 15 of its payload are ignored (R187). -/
def alertMaskRequest (dest : Dest) (tag : Byte) (payload : List Byte) (s : State) : State :=
  request dest (closing dest tag kindAlertMask (payload2 payload) fun w s =>
    answer dest tag kindAlertMask .accepted [] (s.setMgmt (s.mgmt.setMask (w.setWidth 10)))) s

/-- ALERT CLEAR. -/
def alertClearRequest (dest : Dest) (tag : Byte) (payload : List Byte) (s : State) : State :=
  request dest (closing dest tag kindAlertClear (payload2 payload) fun w s =>
    answer dest tag kindAlertClear .accepted [] (s.setMgmt (s.mgmt.clearFlags (w.setWidth 10)))) s

/-! ### The exercise (R150, R151, R156) -/

/-- The link, address, pattern and window of an EXERCISE START, where they are in range and the panel is enabled (R150). -/
def State.judgeStart (s : State) (l a p w : Byte) : Option (LinkIx × Addr × Pattern × Window) := do
  let l ← indexOf 8 l.toNat
  let a ← indexOf 15 a.toNat
  let p ← Pattern.ofCode p.toNat
  let w ← Window.ofCode w.toNat
  if (s.panelEntry (panelAt l a)).enabled then some (l, a, p, w) else none

/-- A START is accepted: the record takes the request, and at a boundary of the link the run begins at once (R150, R151). -/
def acceptStart (l : LinkIx) (s : State) : State := if s.atBoundary l then freeMoment l s else s

/-- EXERCISE START. -/
def exerciseStartRequest (dest : Dest) (tag : Byte) (payload : List Byte) (s : State) : State :=
  request dest (closing dest tag kindExerciseStart (payload4 payload) fun (l, a, p, w) s =>
    if s.exercise.state = .running ∨ s.exercise.startPending then answer dest tag kindExerciseStart .busy [] s
    else
      match s.judgeStart l a p w with
      | none => answer dest tag kindExerciseStart .badValue [] s
      | some (l, a, p, w) =>
        acceptStart l (answer dest tag kindExerciseStart .accepted [] (s.setExercise (startedExercise l a p w)))) s

/-- EXERCISE STOP. -/
def exerciseStopRequest (dest : Dest) (tag : Byte) (payload : List Byte) (s : State) : State :=
  request dest (closing dest tag kindExerciseStop (payload0 payload) fun _ s =>
    answer dest tag kindExerciseStop .accepted [] (stopExercise .stop s)) s

/-! ### NODE RESET and ADDRESS SET (R170, R184) -/

/-- NODE RESET. -/
def nodeResetRequest (dest : Dest) (tag : Byte) (payload : List Byte) (s : State) : State :=
  request dest (closing dest tag kindNodeReset (payload0 payload) fun _ s =>
    answer dest tag kindNodeReset .accepted [] (nodeResetState s)) s

/-- ADDRESS SET: the REPLY carries the new address as its source. -/
def addressSetRequest (dest : Dest) (tag : Byte) (payload : List Byte) (s : State) : State :=
  asking dest (closing dest tag kindAddressSet (payload1 payload) fun a s =>
    if a.toNat ≤ 62 then answer dest tag kindAddressSet .accepted [] (s.setMgmt { s.mgmt with address := a.toNat })
    else answer dest tag kindAddressSet .badValue [] s) s

/-! ### Handing a request to its rule (R165, R171) -/

/-- The twelve management kinds (R185). -/
def isManagement (kind : Byte) : Bool := 0x20 ≤ kind.toNat && kind.toNat ≤ 0x2B
/-- The five operational kinds (R185). -/
def isOperational (kind : Byte) : Bool := 1 ≤ kind.toNat && kind.toNat ≤ 5

/-- A good frame of a management kind to this node or to all nodes. -/
def manage (dest : Dest) (kind tag : Byte) (payload : List Byte) (s : State) : State :=
  match kind.toNat with
  | 0x20 => tableWriteRequest dest tag payload s
  | 0x21 => tableContinueRequest dest tag payload s
  | 0x22 => tableReadRequest dest tag payload s
  | 0x23 => bankSelectRequest dest tag payload s
  | 0x24 => stateReadRequest dest tag payload s
  | 0x25 => counterReadRequest dest tag payload s
  | 0x26 => alertMaskRequest dest tag payload s
  | 0x27 => alertClearRequest dest tag payload s
  | 0x28 => exerciseStartRequest dest tag payload s
  | 0x29 => exerciseStopRequest dest tag payload s
  | 0x2A => nodeResetRequest dest tag payload s
  | 0x2B => addressSetRequest dest tag payload s
  | _ => s

/-- A frame of another kind to this node is counted and answered UNKNOWN REQUEST; to all nodes it is only counted (R165). -/
def unknownRequest (dest : Dest) (kind tag : Byte) (s : State) : State :=
  match dest with
  | .all => bump .unknownKinds s
  | .own => request .own (answer .own tag kind .unknownRequest []) (bump .unknownKinds s)

/-- A good operational frame is handed to the block of its kind (R165). -/
def operate (kind : Byte) (payload : List Byte) (s : State) : State :=
  match kind.toNat with
  | 1 => carStateFrame payload s
  | 2 => assignFrame payload s
  | 3 => cancelFrame payload s
  | 4 => noticeFrame payload s
  | 5 => cadenceSyncFrame payload s
  | _ => s

/-- A good frame is taken by the block its target and kind name (R163, R165). -/
def takeFrame (target : Target) (kind tag : Byte) (payload : List Byte) (s : State) : State :=
  match target with
  | .own => if isManagement kind then manage .own kind tag payload s else unknownRequest .own kind tag s
  | .all => if isManagement kind then manage .all kind tag payload s else unknownRequest .all kind tag s
  | .operational => if isOperational kind then operate kind payload s else bump .unknownKinds s
  | .other => s
  | .bad => bump .badTargets s

end Sys2Proof.Machine
end

