-- ==== Sys2Proof/WellFormed.lean ====
section
/-! DEFINITION. Which commands can reach the part at all: the lengths the links admit (R127, R160). -/

namespace Sys2Proof

/-- The most payload bytes of a dispatch-link frame (R160). -/
def maxPayload : Nat := 248
/-- The most data characters of a dispatch-link frame: header, payload and CRC-16 (R160). -/
def maxFrameData : Nat := 253
/-- The most data characters of a panel-link frame (R127). -/
def maxPanelData : Nat := 20

/-- No frame that arrives complete is longer than its link admits. Every other operand is in range by its type, and a byte of
a payload may hold anything: what the part does with it is the matter of the command's rule. -/
def Instr.wellFormed : Instr → Bool
  | .frameComplete cs => (dataOf cs).length ≤ maxFrameData
  | .entryCrc8Arrives cs => (dataOf cs).length ≤ maxFrameData
  | .brokenFrame cs _ => (dataOf cs).length ≤ maxFrameData + 1
  | .carState p | .assign p | .cancel p | .cadenceSync p => p.length ≤ maxPayload
  | .tableWrite _ _ p | .tableContinue _ _ p | .tableRead _ _ p | .bankSelect _ _ p => p.length ≤ maxPayload
  | .alertMask _ _ p | .alertClear _ _ p => p.length ≤ maxPayload
  | .exerciseStart _ _ p | .exerciseStop _ _ p | .nodeReset _ _ p | .addressSet _ _ p => p.length ≤ maxPayload
  | .returnFrame (.closes d) => d.length ≤ maxFrameData
  | .returnFrame (.whole d) => d.length ≤ maxFrameData
  | .ack _ d => d.length ≤ maxPanelData
  | .echo _ d => d.length ≤ maxPanelData
  | .returnFrame .opens | .returnFrame .aborts => true
  | .powerOnReset _ | .baseTick | .housekeepingTick | .limitEvent _ | .carStale _ => true
  | .promptExpired _ _ | .markerReachesZero _ _ | .dispatchLost | .keepAliveDue _ | .faultedRetryDue _ => true
  | .forwardingDecision _ _ | .frameSilence | .noticeOn _ | .noticeOff _ => true
  | .stateReadNode _ _ | .stateReadPanels _ _ _ _ | .stateReadCar _ _ _ | .stateReadKiosk _ _ _ => true
  | .stateReadNotices _ _ | .stateReadExercise _ _ | .counterReadKeep _ _ | .counterReadClear _ _ => true
  | .uTransmitEnd | .schedulerPick _ | .lastLineSent _ | .phaseFrameEnd _ | .exerciseFrameSent _ => true
  | .replyWindowEnd _ | .replyFrameBroken _ | .writeStartIndexArrives _ _ _ | .returnFrameSilence => true
  | .panelLinkAbortSent _ | .resetPinLow => true

end Sys2Proof
end

