-- ==== Sys2Proof/Machine/Port.lean ====
section
/-! DEFINITION. The dispatch port, the cascade port and the return merger (chapter 9): frames received on U, what goes out on
C, return frames received on C, and the end of a frame on U. -/

namespace Sys2Proof.Machine

/-! ### The delay line (R163, R164) -/

/-- The delay line sends what stands beyond its length; an IDLE that would go out while it holds an extra character is dropped
with that character's delay. -/
def drain : List LineChar → Nat → List LineChar → CPort
  | [], extra, sent => { line := [], extra := extra, sent := sent }
  | c :: rest, extra, sent =>
    if rest.length < Config.delayLength + extra then { line := c :: rest, extra := extra, sent := sent }
    else if c = .idle ∧ 0 < extra then drain rest (extra - 1) sent
    else drain rest extra (sent ++ [c])

/-- A character enters the delay line. -/
def CPort.push (c : LineChar) (k : CPort) : CPort := drain (k.line ++ [c]) k.extra k.sent

/-- During silence the delay line empties; a character follows where the port has one to send. -/
def CPort.empty (last : List LineChar) (k : CPort) : CPort := { line := [], extra := 0, sent := k.sent ++ k.line ++ last }

/-- A character enters the delay line. -/
def pushC (c : LineChar) (s : State) : State := s.setCPort (s.cport.push c)

/-- Characters enter the delay line in order. -/
def pushAllC (cs : List LineChar) (s : State) : State := forEach cs pushC s

/-- Replace the last characters in the delay line. -/
def CPort.replaceLast (n : Nat) (f : List LineChar → List LineChar) (k : CPort) : CPort :=
  { k with line := k.line.take (k.line.length - n) ++ f (k.line.drop (k.line.length - n)) }

/-- A character that goes out as IDLE, except an ABORT that ends the frame before (R163, R164). -/
def LineChar.silenced : LineChar → LineChar
  | .abort => .abort
  | _ => .idle

/-- The frame's first characters are not forwarded: IDLE in their place (R163). -/
def idleLast (n : Nat) (s : State) : State := s.setCPort (s.cport.replaceLast n (List.map LineChar.silenced))

/-- Where an ABORT stands in place of the START of a frame that is forwarded, because that START broke a forwarded frame, the
START follows it and the line holds one extra character (R164): the line's last three characters, kind and target behind it. -/
def CPort.startBehindAbort (k : CPort) : CPort :=
  match k.line.drop (k.line.length - 3) with
  | .abort :: rest =>
    if k.extra < Config.maxExtra then
      { k.replaceLast 3 (fun _ => .abort :: .start :: rest) with extra := k.extra + 1 }
    else k
  | _ => k

/-- The decision, kind and target having arrived behind the START: the frame is forwarded, or goes out as IDLE (R163, R164). -/
def decideHead (forward : Bool) (s : State) : State :=
  if forward then s.setCPort s.cport.startBehindAbort else idleLast 3 s

/-! ### The receiver's content (R160 to R163) -/

/-- The frame being received goes out on C: decided, forwarded, and not sent as IDLE for want of delay. -/
def URx.forwarding (r : URx) : Bool := (r.target.map Target.forwarded).getD false && !r.blanked

/-- The receiver is outside a frame. -/
def uOutside (s : State) : State := s.setRx .outside

/-- A frame's START arrives outside a frame. -/
def uBegin (s : State) : State := pushC .start (s.setRx { URx.outside with inFrame := true })

/-- Characters of a frame that was not forwarded stand as IDLE on C once it ends before its target (R163). -/
def undecidedToIdle (s : State) : State :=
  if s.rx.target.isNone then idleLast (s.rx.data.length + 1) s else s

/-- A frame is broken: it is not taken and counts once; entries held are discarded (R161, R174). The transmitter picks at once where
that count raises an ALERT: a START that breaks a frame comes before the frame it begins (R168, log 5). -/
def uBreak (s : State) : State := pickUp (bump .brokenFrames (uOutside s))

/-- An ABORT arrives; outside a frame it is discarded. -/
def uAbort (s : State) : State :=
  if !s.rx.inFrame then pushC .idle s
  else uBreak (pushC (if s.rx.forwarding then .abort else .idle) (undecidedToIdle s))

/-- A START arrives: outside a frame it begins one; inside, it breaks the frame and begins the next. In place of a START that
breaks a forwarded frame an ABORT goes out; where three extra characters are held, all of the new frame goes out as IDLE
(R161, R164). -/
def uStart (s : State) : State :=
  if !s.rx.inFrame then uBegin s
  else if s.rx.forwarding then
    let full := s.cport.extra = Config.maxExtra
    let s := uBreak (pushC .abort s)
    s.setRx { URx.outside with inFrame := true, blanked := full }
  else uBegin (uBreak (undecidedToIdle s))

/-- 32 character times of silence inside a frame (R161, R164). -/
def uSilence (s : State) : State :=
  if !s.rx.inFrame then s
  else
    let last := if s.rx.forwarding then [.abort] else []
    let s := undecidedToIdle s
    uBreak (s.setCPort (s.cport.empty last))

/-- The kind of the frame being received is TABLE WRITE or TABLE CONTINUE and the frame is this node's (R173, R176). -/
def URx.writes (r : URx) : Bool :=
  (r.data.head? == some kindTableWrite || r.data.head? == some kindTableContinue)
    && (r.target == some .own || r.target == some .all)

/-- The write of a TABLE WRITE or TABLE CONTINUE whose header has arrived. -/
def beginWrite (kind : Byte) (s : State) : State :=
  if kind = kindTableContinue then continueBegins s else putWrite .fresh s

/-- The decision, when the target has arrived behind kind and START (R163). -/
def decide2 (s : State) : State :=
  match s.rx.data with
  | [_, target] =>
    let s := s.setRx { s.rx with target := some (targetOf s target) }
    decideHead s.rx.forwarding s
  | _ => s

/-- What the management unit does with a character of a table write as it arrives (R173, R174). -/
def streamChar (b : Byte) (s : State) : State :=
  if s.rx.writes then
    if s.rx.data.length = 3 then beginWrite (s.rx.data.headD 0) s
    else if 3 < s.rx.data.length then writeByte b s
    else s
  else s

/-- A data character arrives. Outside a frame it is discarded (IDLE on C: log 7); the 254th of a frame breaks it (R160).
`stream` is false for the two check characters, which are no part of a table write's payload. -/
def uData (stream : Bool) (b : Byte) (s : State) : State :=
  if !s.rx.inFrame then pushC .idle s
  else if maxFrameData ≤ s.rx.data.length then uBreak (pushC (if s.rx.forwarding then .abort else .idle) s)
  else
    let fwd := s.rx.forwarding || s.rx.target.isNone
    let s := s.setRx { s.rx with data := s.rx.data ++ [b] }
    let s := decide2 (pushC (if fwd then .data b else .idle) s)
    if stream then streamChar b s else s

/-- An IDLE arrives: it is no part of a frame's content, and goes through the delay line as received (R160, R164). One between a
frame's START and its target does not enter the line, since that START waits at its head for the decision (log 7). -/
def uIdle (s : State) : State := if s.rx.inFrame && s.rx.target.isNone then s else pushC .idle s

/-- Characters arrive in order; those after the first `payload` data characters are a frame's check. -/
def feed : Nat → List RxChar → State → State
  | _, [], s => s
  | payload, .idle :: cs, s => feed payload cs (uIdle s)
  | payload, .data b :: cs, s => feed (payload - 1) cs (uData (0 < payload) b s)

/-- Data characters alone arrive in order. -/
def feedData (bs : List Byte) (s : State) : State := feed bs.length (bs.map .data) s

/-! ### Good frames (R162, R165, R166) -/

/-- Loss ends (R166): DISPATCH RESTORED, every held content discarded, every enabled panel recomposed (R114). -/
def dispatchRestored (s : State) : State :=
  recomposeEnabled
    (forEach allPanels (fun p s => s.setContent p { s.content p with held := none }) (raise .dispatchRestored s))

/-- A good frame: counted, the loss countdown reloaded, loss ended (R162, R166). -/
def goodFrame (s : State) : State :=
  let lost := s.loss.asserted
  let s := bump .goodFrames s
  let s := s.setLoss { asserted := false, countdown := s.profile.lossTimeout }
  if lost then dispatchRestored s else s

/-- A good frame is counted, ends loss, has its held entries stored (R174), and is taken (R162). -/
def goodFrameTaken (target : Target) (kind tag : Byte) (payload : List Byte) (s : State) : State :=
  takeFrame target kind tag payload (storeHeld (goodFrame s))

/-- Whether a frame of these data characters passes at its END (R162). -/
def framePasses (data : List Byte) : Bool := 5 ≤ data.length && crcPasses data

/-- An END arrives (R162, R164); outside a frame it is discarded. -/
def uEnd (s : State) : State :=
  if !s.rx.inFrame then pushC .idle s
  else
    let data := s.rx.data
    let ok := framePasses data
    let s := pushC (if s.rx.forwarding then (if ok then .stop else .abort) else .idle) (undecidedToIdle s)
    if ok then
      match s.rx.target, data with
      | some target, kind :: _ :: tag :: rest => uOutside (goodFrameTaken target kind tag (rest.take (rest.length - 2)) s)
      | _, _ => uOutside s
    else bump .crcFailures (uOutside s)

/-! ### The receiver's events as commands (log 3, log 7) -/

/-- The frame's START, where the receiver is outside a frame. -/
def ensureFrame (s : State) : State := if s.rx.inFrame then s else uBegin s

/-- The START of a frame none of whose data characters has arrived: one that broke a frame and stands at its beginning, or a
new one. -/
def freshFrame (s : State) : State := if s.rx.inFrame ∧ s.rx.data = [] then s else uStart s

/-- Kind and target arrive, behind a START (R163). -/
def decisionArrives (kind target : Byte) (s : State) : State := feedData [kind, target] (freshFrame s)

/-- Characters of a frame arrive. Outside a frame its START stands before the first data character, behind the IDLE that come
first. -/
def frameChars (payload : Nat) (cs : List RxChar) (s : State) : State :=
  feed payload (cs.dropWhile RxChar.isIdle) (ensureFrame (feed 0 (cs.takeWhile RxChar.isIdle) s))

/-- A frame's remaining characters and its END arrive; the last two data characters are its check. -/
def completes (cs : List RxChar) (s : State) : State := uEnd (frameChars ((dataOf cs).length - 2) cs s)

/-- A frame's characters arrive and it is broken: by an ABORT, by a START, or by its length, where its 254th data character is
among them (a frame not so long is broken all the same, log 4). -/
def breaks (cs : List RxChar) (cause : BreakCause) (s : State) : State :=
  let s := frameChars cs.length cs s
  match cause with
  | .abort => uAbort s
  | .tooLong => if s.rx.inFrame then uAbort s else s
  | .start => uStart s

/-- Characters of a table write arrive; IDLE alone begins no frame. -/
def writeCharsArrive (cs : List RxChar) (s : State) : State :=
  if (dataOf cs).isEmpty then feed 0 cs s else frameChars cs.length cs s

/-- Tag, table id and start index of a TABLE WRITE arrive behind its kind and target; outside a frame the first two arrive with
them, the frame being to this node. -/
def startIndexChars (tag table start : Byte) (s : State) : State :=
  feedData ((if s.rx.inFrame then [] else [kindTableWrite, byteOf s.mgmt.address]) ++ [tag, table, start]) (ensureFrame s)

/-! ### A whole good frame (log 3) -/

/-- What a whole frame that passes puts on C behind its START: kind and target, with the decision they bring, and then the other
characters and its END, or IDLE where it is consumed (R163, R164). -/
def frameOnC (target : Target) (data : List Byte) (s : State) : State :=
  let forward := target.forwarded && !s.rx.blanked
  let rest := data.drop 2
  pushAllC (if forward then rest.map .data ++ [.stop] else (rest.map fun _ => .idle) ++ [.idle])
    (decideHead forward (pushAllC ((data.take 2).map .data) s))

/-- The payload of a TABLE WRITE or TABLE CONTINUE arrives whole. -/
def writePayload (kind : Byte) (payload : List Byte) (s : State) : State :=
  if kind = kindTableWrite ∨ kind = kindTableContinue then writeBytes payload (beginWrite kind s)
  else putWrite .fresh s

/-- A whole good frame is received: its START, its characters on C, its entries where it is a table write to this node, its
END, and what it does (R160 to R165). A payload of more than 248 bytes breaks the frame instead. -/
def receive (kind target tag : Byte) (payload : List Byte) (s : State) : State :=
  let data := withCrc ([kind, target, tag] ++ payload)
  if maxPayload < payload.length then breaks (data.map .data) .tooLong (freshFrame s)
  else
    let t := targetOf s target
    let s := uOutside (frameOnC t data (freshFrame s))
    let s := if t = .own ∨ t = .all then writePayload kind payload s else s
    uOutside (goodFrameTaken t kind tag payload s)

/-! ### Return frames on C (R167) -/

/-- A return drop is counted on C; the transmitter picks at once where that count raises an ALERT, since a START that breaks a
return frame comes before the frame it begins (R168, log 5). -/
def returnDrop (s : State) : State := pickUp (bump .returnDrops s)

/-- Give a slot its content. -/
def setSlot (i : Fin 2) (x : Slot) (s : State) : State := s.setUp { s.up with slots := s.up.slots.set i x }

/-- The C receiver is outside a frame. -/
def cOutside (s : State) : State := s.setUp { s.up with crx := .outside }

/-- The return frame being received is broken or bad: its slot is freed and it counts as a drop. A discarded frame has been
counted at its START. -/
def cBreak (s : State) : State :=
  match s.up.crx with
  | .outside => s
  | .discarding => cOutside s
  | .receiving i => returnDrop (cOutside (setSlot i .free s))

/-- The slot a return frame takes at its START. -/
def Up.freeSlot (u : Up) : Option (Fin 2) :=
  if u.slots[(0 : Fin 2)] = .free then some 0 else if u.slots[(1 : Fin 2)] = .free then some 1 else none

/-- A START arrives on C: it breaks a frame being received, and is received into a free slot or discarded. -/
def cStart (s : State) : State :=
  let s := cBreak s
  match s.up.freeSlot with
  | some i => let s := setSlot i .receiving s; s.setUp { s.up with crx := .receiving i }
  | none => returnDrop (s.setUp { s.up with crx := .discarding })

/-- Whether a return frame is kept: complete, not too long, its check passing, a REPLY or ALERT. -/
def wellFormedReturn (data : List Byte) : Bool :=
  framePasses data && decide (data.length ≤ maxFrameData)
    && (data.head? == some kindReply || data.head? == some kindAlert)

/-- An END arrives on C. -/
def cEnd (data : List Byte) (s : State) : State :=
  match s.up.crx with
  | .receiving i =>
    if wellFormedReturn data then
      let s := cOutside (setSlot i (.kept data) s)
      s.setUp { s.up with order := s.up.order ++ [i] }
    else cBreak s
  | _ => cBreak s

/-- What arrives on C. -/
def returnArrives (a : ReturnArrival) (s : State) : State :=
  match a with
  | .opens => cStart s
  | .closes data => cEnd data s
  | .aborts => cBreak s
  | .whole data => cEnd data (cStart s)

/-! ### The end of a frame on U, and the end of a command -/

/-- The frame on U ends: the slot of a return frame is freed, and the turn passes to the one not sent (R167, R168). -/
def upSent (s : State) : State :=
  match s.up.tx with
  | none => s
  | some (.reply _) => s.setUp { s.up with tx := none }
  | some (.alert _) => s.setUp { s.up with tx := none, turn := .returns }
  | some (.returned i) => let s := setSlot i .free s; s.setUp { s.up with tx := none, turn := .alert }

/-- A command outside the reset pin: its effect, and the picks that follow its last event. -/
def effect (s : State) (f : State → State) : Host.Outcome State Fault Refusal := act s fun s => settle (f s)

end Sys2Proof.Machine
end

