-- ==== Sys2Proof/Machine/FrameRows.lean ====
section
/-! DEFINITION. The meanings of the frames of the dispatch link: each is one whole good frame received on U (log 3), operational
(target 64, tag 0) or a management request to this node or to all nodes. -/

namespace Sys2Proof.Machine

/-- An operational frame (R165, R186). -/
def operational (kind : Byte) (payload : List Byte) (s : State) : Host.Outcome State Fault Refusal :=
  effect s (receive kind targetOperational 0 payload)

/-- A management request (R165, R187). -/
def management (kind : Byte) (dest : Dest) (tag : Byte) (payload : List Byte) (s : State) :
    Host.Outcome State Fault Refusal :=
  effect s fun s => receive kind (Dest.byte s dest) tag payload s

/-- CAR_STATE (R9). -/
def execCarState (payload : List Byte) (s : State) : Host.Outcome State Fault Refusal := operational kindCarState payload s

/-- ASSIGN (R52). -/
def execAssign (payload : List Byte) (s : State) : Host.Outcome State Fault Refusal := operational kindAssign payload s

/-- CANCEL (R55). -/
def execCancel (payload : List Byte) (s : State) : Host.Outcome State Fault Refusal := operational kindCancel payload s

/-- NOTICE_ON (R73). -/
def execNoticeOn (index : Byte) (s : State) : Host.Outcome State Fault Refusal := operational kindNotice [index, 1] s

/-- NOTICE_OFF (R74). -/
def execNoticeOff (index : Byte) (s : State) : Host.Outcome State Fault Refusal := operational kindNotice [index, 0] s

/-- CADENCE_SYNC (R97). -/
def execCadenceSync (payload : List Byte) (s : State) : Host.Outcome State Fault Refusal :=
  operational kindCadenceSync payload s

/-- TABLE_WRITE (R173). -/
def execTableWrite (dest : Dest) (tag : Byte) (payload : List Byte) (s : State) : Host.Outcome State Fault Refusal :=
  management kindTableWrite dest tag payload s

/-- TABLE_CONTINUE (R176). -/
def execTableContinue (dest : Dest) (tag : Byte) (payload : List Byte) (s : State) : Host.Outcome State Fault Refusal :=
  management kindTableContinue dest tag payload s

/-- TABLE_READ (R177). -/
def execTableRead (dest : Dest) (tag : Byte) (payload : List Byte) (s : State) : Host.Outcome State Fault Refusal :=
  management kindTableRead dest tag payload s

/-- BANK_SELECT (R107). -/
def execBankSelect (dest : Dest) (tag : Byte) (payload : List Byte) (s : State) : Host.Outcome State Fault Refusal :=
  management kindBankSelect dest tag payload s

/-- STATE_READ_NODE (R178): item 0. -/
def execStateReadNode (dest : Dest) (tag : Byte) (s : State) : Host.Outcome State Fault Refusal :=
  management kindStateRead dest tag [0, 0, 0] s

/-- STATE_READ_PANELS (R147): item 1. -/
def execStateReadPanels (dest : Dest) (tag first count : Byte) (s : State) : Host.Outcome State Fault Refusal :=
  management kindStateRead dest tag [1, first, count] s

/-- STATE_READ_CAR (R178): item 2. -/
def execStateReadCar (dest : Dest) (tag car : Byte) (s : State) : Host.Outcome State Fault Refusal :=
  management kindStateRead dest tag [2, car, 0] s

/-- STATE_READ_KIOSK (R68): item 3. -/
def execStateReadKiosk (dest : Dest) (tag kiosk : Byte) (s : State) : Host.Outcome State Fault Refusal :=
  management kindStateRead dest tag [3, kiosk, 0] s

/-- STATE_READ_NOTICES (R85): item 4. -/
def execStateReadNotices (dest : Dest) (tag : Byte) (s : State) : Host.Outcome State Fault Refusal :=
  management kindStateRead dest tag [4, 0, 0] s

/-- STATE_READ_EXERCISE (R158): item 5. -/
def execStateReadExercise (dest : Dest) (tag : Byte) (s : State) : Host.Outcome State Fault Refusal :=
  management kindStateRead dest tag [5, 0, 0] s

/-- COUNTER_READ_KEEP (R180): choice 0. -/
def execCounterReadKeep (dest : Dest) (tag : Byte) (s : State) : Host.Outcome State Fault Refusal :=
  management kindCounterRead dest tag [0] s

/-- COUNTER_READ_CLEAR (R180): choice 1. -/
def execCounterReadClear (dest : Dest) (tag : Byte) (s : State) : Host.Outcome State Fault Refusal :=
  management kindCounterRead dest tag [1] s

/-- ALERT_MASK (R181). -/
def execAlertMask (dest : Dest) (tag : Byte) (payload : List Byte) (s : State) : Host.Outcome State Fault Refusal :=
  management kindAlertMask dest tag payload s

/-- ALERT_CLEAR (R181). -/
def execAlertClear (dest : Dest) (tag : Byte) (payload : List Byte) (s : State) : Host.Outcome State Fault Refusal :=
  management kindAlertClear dest tag payload s

/-- EXERCISE_START (R150). -/
def execExerciseStart (dest : Dest) (tag : Byte) (payload : List Byte) (s : State) : Host.Outcome State Fault Refusal :=
  management kindExerciseStart dest tag payload s

/-- EXERCISE_STOP (R156). -/
def execExerciseStop (dest : Dest) (tag : Byte) (payload : List Byte) (s : State) : Host.Outcome State Fault Refusal :=
  management kindExerciseStop dest tag payload s

/-- NODE_RESET (R184). -/
def execNodeReset (dest : Dest) (tag : Byte) (payload : List Byte) (s : State) : Host.Outcome State Fault Refusal :=
  management kindNodeReset dest tag payload s

/-- ADDRESS_SET (R170). -/
def execAddressSet (dest : Dest) (tag : Byte) (payload : List Byte) (s : State) : Host.Outcome State Fault Refusal :=
  management kindAddressSet dest tag payload s

end Sys2Proof.Machine
end

