-- ==== Sys2Proof/Machine/LinkRows.lean ====
section
/-! DEFINITION. The meanings of the panel links' commands (chapters 7 and 8). -/

namespace Sys2Proof.Machine

/-- SCHEDULER_PICK (R136): the pick of one link by itself (log 5). -/
def execSchedulerPick (l : LinkIx) (s : State) : Host.Outcome State Fault Refusal := effect s (pick l)

/-- LAST_LINE_SENT (R131). -/
def execLastLineSent (l : LinkIx) (s : State) : Host.Outcome State Fault Refusal := effect s (lastLine l)

/-- PHASE_FRAME_END (R135). -/
def execPhaseFrameEnd (l : LinkIx) (s : State) : Host.Outcome State Fault Refusal := effect s (phaseEnd l)

/-- EXERCISE_FRAME_SENT (R153). -/
def execExerciseFrameSent (l : LinkIx) (s : State) : Host.Outcome State Fault Refusal := effect s (exerciseSent l)

/-- REPLY_WINDOW_END (R131, R153): no START came. -/
def execReplyWindowEnd (l : LinkIx) (s : State) : Host.Outcome State Fault Refusal := effect s (replyMissing l)

/-- ACK (R132): a reply frame received complete in the window. -/
def execAck (l : LinkIx) (data : List Byte) (s : State) : Host.Outcome State Fault Refusal := effect s (replyComplete l data)

/-- REPLY_FRAME_BROKEN (R131, R153). -/
def execReplyFrameBroken (l : LinkIx) (s : State) : Host.Outcome State Fault Refusal := effect s (replyMissing l)

/-- ECHO (R154): a reply frame received complete in the window, as an ACK is. -/
def execEcho (l : LinkIx) (data : List Byte) (s : State) : Host.Outcome State Fault Refusal := effect s (replyComplete l data)

/-- PANEL_LINK_ABORT_SENT (R148). -/
def execPanelLinkAbortSent (l : LinkIx) (s : State) : Host.Outcome State Fault Refusal := effect s (abortSent l)

end Sys2Proof.Machine
end

