-- ==== Sys2Proof/Machine/PortRows.lean ====
section
/-! DEFINITION. The meanings of the commands of the U and C receivers, of the U transmitter, and of the reset pin. -/

namespace Sys2Proof.Machine

/-- POWER_ON_RESET (R183): the straps are read as the pin is released. -/
def execPowerOnReset (straps : BitVec 6) (s : State) : Host.Outcome State Fault Refusal := .next (powerOn straps s)

/-- RESET_PIN_LOW (R183). -/
def execResetPinLow (s : State) : Host.Outcome State Fault Refusal := .next (pinLow s)

/-- FORWARDING_DECISION (R163). -/
def execForwardingDecision (kind target : Byte) (s : State) : Host.Outcome State Fault Refusal :=
  effect s (decisionArrives kind target)

/-- FRAME_COMPLETE (R162). -/
def execFrameComplete (chars : List RxChar) (s : State) : Host.Outcome State Fault Refusal := effect s (completes chars)

/-- BROKEN_FRAME (R161). -/
def execBrokenFrame (chars : List RxChar) (cause : BreakCause) (s : State) : Host.Outcome State Fault Refusal :=
  effect s (breaks chars cause)

/-- FRAME_SILENCE (R161). -/
def execFrameSilence (s : State) : Host.Outcome State Fault Refusal := effect s uSilence

/-- WRITE_START_INDEX_ARRIVES (R173). -/
def execWriteStartIndexArrives (tag tableId start : Byte) (s : State) : Host.Outcome State Fault Refusal :=
  effect s (startIndexChars tag tableId start)

/-- ENTRY_CRC8_ARRIVES (R174). -/
def execEntryCrc8Arrives (chars : List RxChar) (s : State) : Host.Outcome State Fault Refusal := effect s (writeCharsArrive chars)

/-- RETURN_FRAME (R167). -/
def execReturnFrame (arrival : ReturnArrival) (s : State) : Host.Outcome State Fault Refusal := effect s (returnArrives arrival)

/-- RETURN_FRAME_SILENCE (R161, R167). -/
def execReturnFrameSilence (s : State) : Host.Outcome State Fault Refusal := effect s cBreak

/-- U_TRANSMIT_END (R168). -/
def execUTransmitEnd (s : State) : Host.Outcome State Fault Refusal := effect s upSent

end Sys2Proof.Machine
end

