-- ==== Sys2Proof/Machine/TimeRows.lean ====
section
/-! DEFINITION. The meanings of the time base's commands (R86) and of the sub-events of a tick (log 4). -/

namespace Sys2Proof.Machine

/-! ### The ticks (R86) -/

/-- The dispatch port's share of the housekeeping tick: while loss is clear the countdown is decremented, and the tick that
brings it to 0 asserts loss (R166). -/
def loseDispatch (s : State) : State :=
  recomposeEnabled (raise .dispatchLost (s.setLoss { asserted := true, countdown := 0 }))

/-- The tick that brings the countdown to 0. -/
def Loss.due (x : Loss) : Bool := !x.asserted && decide (x.countdown ≤ 1)

/-- The housekeeping tick on the loss detector. -/
def tickLoss (s : State) : State :=
  if s.loss.asserted then s
  else if s.loss.due then loseDispatch s
  else s.setLoss { s.loss with countdown := s.loss.countdown - 1 }

/-- The housekeeping tick: car tracker, prompt unit, dispatch port, panel links (R86, order: log 8). -/
def housekeeping (s : State) : State := tickPanels (tickLoss (tickPrompts (tickCars s)))

/-- The base tick: the cadence timers count it, and every hundredth is a housekeeping tick (R86, log 6). -/
def baseTickDue (s : State) : State :=
  let s := tickTimers s
  if s.baseCount + 1 < Config.baseTicksPerHousekeeping then s.setBaseCount (s.baseCount + 1)
  else housekeeping (s.setBaseCount 0)

/-- BASE_TICK (R86). -/
def execBaseTick (s : State) : Host.Outcome State Fault Refusal := effect s baseTickDue

/-- HOUSEKEEPING_TICK (R86): the tick by itself (log 6). -/
def execHousekeepingTick (s : State) : Host.Outcome State Fault Refusal := effect s housekeeping

/-! ### What a tick brings about, one by one (log 4) -/

/-- LIMIT_EVENT (R90): the source event that is the timer's limit event; no other source event is this command's. -/
def execLimitEvent (t : TimerIx) (s : State) : Host.Outcome State Fault Refusal :=
  effect s fun s => if atLimit (s.cadenceEntry t) (s.timer t) then sourceEventChain t s else s

/-- CAR_STALE (R21): a running countdown's last decrement. -/
def execCarStale (c : CarIx) (s : State) : Host.Outcome State Fault Refusal :=
  effect s fun s => if (s.car c).counting ∧ (s.car c).staleCountdown ≤ 1 then becomeStale c s else s

/-- PROMPT_EXPIRED (R56). -/
def execPromptExpired (k : KioskIx) (ticket : BitVec 16) (s : State) : Host.Outcome State Fault Refusal :=
  effect s (expirePrompt k ticket)

/-- MARKER_REACHES_ZERO (R54). -/
def execMarkerReachesZero (k : KioskIx) (ticket : BitVec 16) (s : State) : Host.Outcome State Fault Refusal :=
  effect s (endMarker k ticket)

/-- DISPATCH_LOST (R166). -/
def execDispatchLost (s : State) : Host.Outcome State Fault Refusal :=
  effect s fun s => if s.loss.due then loseDispatch s else s

/-- KEEP_ALIVE_DUE (R139). -/
def execKeepAliveDue (p : PanelIx) (s : State) : Host.Outcome State Fault Refusal := effect s (keepAliveDue p)

/-- FAULTED_RETRY_DUE (R140). -/
def execFaultedRetryDue (p : PanelIx) (s : State) : Host.Outcome State Fault Refusal := effect s (retryDue p)

end Sys2Proof.Machine
end

