-- ==== Sys2Proof/Machine/Dispatch.lean ====
section
/-! DEFINITION. Which meaning each command has: one arm per constructor, one direct call each. -/

namespace Sys2Proof.Machine

/-- The effect of a command on everything but the queue. -/
def exec (i : Instr) (s : State) : Host.Outcome State Fault Refusal :=
  match i with
  | .powerOnReset straps => Sys2Proof.Machine.execPowerOnReset straps s
  | .baseTick => Sys2Proof.Machine.execBaseTick s
  | .housekeepingTick => Sys2Proof.Machine.execHousekeepingTick s
  | .limitEvent t => Sys2Proof.Machine.execLimitEvent t s
  | .carStale c => Sys2Proof.Machine.execCarStale c s
  | .promptExpired k ticket => Sys2Proof.Machine.execPromptExpired k ticket s
  | .markerReachesZero k ticket => Sys2Proof.Machine.execMarkerReachesZero k ticket s
  | .dispatchLost => Sys2Proof.Machine.execDispatchLost s
  | .keepAliveDue p => Sys2Proof.Machine.execKeepAliveDue p s
  | .faultedRetryDue p => Sys2Proof.Machine.execFaultedRetryDue p s
  | .forwardingDecision kind target => Sys2Proof.Machine.execForwardingDecision kind target s
  | .frameComplete chars => Sys2Proof.Machine.execFrameComplete chars s
  | .brokenFrame chars cause => Sys2Proof.Machine.execBrokenFrame chars cause s
  | .frameSilence => Sys2Proof.Machine.execFrameSilence s
  | .carState payload => Sys2Proof.Machine.execCarState payload s
  | .assign payload => Sys2Proof.Machine.execAssign payload s
  | .cancel payload => Sys2Proof.Machine.execCancel payload s
  | .noticeOn index => Sys2Proof.Machine.execNoticeOn index s
  | .noticeOff index => Sys2Proof.Machine.execNoticeOff index s
  | .cadenceSync payload => Sys2Proof.Machine.execCadenceSync payload s
  | .tableWrite dest tag payload => Sys2Proof.Machine.execTableWrite dest tag payload s
  | .tableContinue dest tag payload => Sys2Proof.Machine.execTableContinue dest tag payload s
  | .tableRead dest tag payload => Sys2Proof.Machine.execTableRead dest tag payload s
  | .bankSelect dest tag payload => Sys2Proof.Machine.execBankSelect dest tag payload s
  | .stateReadNode dest tag => Sys2Proof.Machine.execStateReadNode dest tag s
  | .stateReadPanels dest tag first count => Sys2Proof.Machine.execStateReadPanels dest tag first count s
  | .stateReadCar dest tag car => Sys2Proof.Machine.execStateReadCar dest tag car s
  | .stateReadKiosk dest tag kiosk => Sys2Proof.Machine.execStateReadKiosk dest tag kiosk s
  | .stateReadNotices dest tag => Sys2Proof.Machine.execStateReadNotices dest tag s
  | .stateReadExercise dest tag => Sys2Proof.Machine.execStateReadExercise dest tag s
  | .counterReadKeep dest tag => Sys2Proof.Machine.execCounterReadKeep dest tag s
  | .counterReadClear dest tag => Sys2Proof.Machine.execCounterReadClear dest tag s
  | .alertMask dest tag payload => Sys2Proof.Machine.execAlertMask dest tag payload s
  | .alertClear dest tag payload => Sys2Proof.Machine.execAlertClear dest tag payload s
  | .exerciseStart dest tag payload => Sys2Proof.Machine.execExerciseStart dest tag payload s
  | .exerciseStop dest tag payload => Sys2Proof.Machine.execExerciseStop dest tag payload s
  | .nodeReset dest tag payload => Sys2Proof.Machine.execNodeReset dest tag payload s
  | .addressSet dest tag payload => Sys2Proof.Machine.execAddressSet dest tag payload s
  | .returnFrame arrival => Sys2Proof.Machine.execReturnFrame arrival s
  | .uTransmitEnd => Sys2Proof.Machine.execUTransmitEnd s
  | .schedulerPick l => Sys2Proof.Machine.execSchedulerPick l s
  | .lastLineSent l => Sys2Proof.Machine.execLastLineSent l s
  | .phaseFrameEnd l => Sys2Proof.Machine.execPhaseFrameEnd l s
  | .exerciseFrameSent l => Sys2Proof.Machine.execExerciseFrameSent l s
  | .replyWindowEnd l => Sys2Proof.Machine.execReplyWindowEnd l s
  | .ack l data => Sys2Proof.Machine.execAck l data s
  | .replyFrameBroken l => Sys2Proof.Machine.execReplyFrameBroken l s
  | .echo l data => Sys2Proof.Machine.execEcho l data s
  | .entryCrc8Arrives chars => Sys2Proof.Machine.execEntryCrc8Arrives chars s
  | .writeStartIndexArrives tag tableId start => Sys2Proof.Machine.execWriteStartIndexArrives tag tableId start s
  | .returnFrameSilence => Sys2Proof.Machine.execReturnFrameSilence s
  | .panelLinkAbortSent l => Sys2Proof.Machine.execPanelLinkAbortSent l s
  | .resetPinLow => Sys2Proof.Machine.execResetPinLow s

end Sys2Proof.Machine
end

