-- ==== Sys2Proof/Safety.lean ====
section
/-! DEFINITION. What a sound state of the part is: the laws the spec's rules own, as properties of a state, and the terms the
statements use for a REPLY. No command ends in a fault or a refusal, so a run is safe as long as its states are sound. -/

namespace Sys2Proof.Machine

/-! ### Parts of the state, for saying what a command leaves as it was -/

/-- The parts of the state: its fields, with those of the management unit told apart. -/
inductive Part where
  | pending | reset | tables | cars | lanterns | queues | notices | timeBase | timers | contents | health | links | exercise
  | loss | receiver | cPort | returnPath | address | straps | selected | openWrite | counters | flags | mask | newly
  | draws
deriving DecidableEq, Repr

/-- Two states agree on a part. -/
def Part.Same (s t : State) : Part → Prop
  | .pending => t.pending = s.pending
  | .reset => t.inReset = s.inReset
  | .tables => t.tables = s.tables
  | .cars => t.cars = s.cars
  | .lanterns => t.lanterns = s.lanterns
  | .queues => t.queues = s.queues
  | .notices => t.active = s.active
  | .timeBase => t.baseCount = s.baseCount
  | .timers => t.timers = s.timers
  | .contents => t.contents = s.contents
  | .health => t.health = s.health
  | .links => t.links = s.links
  | .exercise => t.exercise = s.exercise
  | .loss => t.loss = s.loss
  | .receiver => t.rx = s.rx
  | .cPort => t.cport = s.cport
  | .returnPath => t.up = s.up
  | .address => t.mgmt.address = s.mgmt.address
  | .straps => t.mgmt.strap = s.mgmt.strap
  | .selected => t.mgmt.selected = s.mgmt.selected
  | .openWrite => t.mgmt.openWrite = s.mgmt.openWrite
  | .counters => t.mgmt.counters = s.mgmt.counters
  | .flags => t.mgmt.flags = s.mgmt.flags
  | .mask => t.mgmt.mask = s.mgmt.mask
  | .newly => t.mgmt.newly = s.mgmt.newly
  | .draws => t.draws = s.draws

/-- `t` differs from `s` in the named parts only. -/
def OnlyIn (ps : List Part) (s t : State) : Prop := ∀ q : Part, q ∉ ps → q.Same s t

/-- What the picks after every event may change: what a line or the U transmitter sends (log 5). -/
def pickParts : List Part := [.links, .returnPath, .newly]

/-- What a recomposition may change besides: the panel's content, the chime version of its lantern record, a mark on the
exercise, the ROUTE MISMATCH flag. -/
def composeParts : List Part := [.contents, .lanterns, .exercise, .flags] ++ pickParts

/-- What the reception of any whole good frame may change: the receiver, the delay line, the good frames counter, and the loss
it ends. -/
def frameParts : List Part := [.receiver, .cPort, .loss, .counters] ++ composeParts

/-- What the storing of table entries may change: the tables, the open write, and what their owners do at once (R172). -/
def storeParts : List Part := [.tables, .openWrite, .cars, .queues, .notices, .timers, .counters] ++ composeParts

/-- What characters of a table write may change as they arrive; the free values taken are the model's own (log 16). -/
def streamParts : List Part := [.receiver, .cPort, .draws] ++ storeParts

/-- What the housekeeping tick may change (R86). -/
def housekeepingParts : List Part := [.cars, .queues, .timers, .loss, .health, .counters] ++ composeParts

/-- What the end of a sequence or of an exercise frame may change (R131, R132, R154). -/
def outcomeParts : List Part := [.health, .counters] ++ composeParts

/-- Every part but those that the named list holds. -/
def allBut (ps : List Part) : List Part :=
  [Part.pending, .reset, .tables, .cars, .lanterns, .queues, .notices, .timeBase, .timers, .contents, .health, .links, .exercise
  , .loss, .receiver, .cPort, .returnPath, .address, .straps, .selected, .openWrite, .counters, .flags, .mask, .newly
  , .draws].filter fun p => !ps.contains p

/-- The parts each command may change; it leaves every other part as it was. The lists follow the rules that own each command, and
the model's choices of logs 3 to 6, 16 and 20 where they say what a row does and leaves. -/
def touched : Instr → List Part
  | .powerOnReset _ => allBut [.pending, .draws]
  | .resetPinLow => [.reset, .receiver, .cPort, .returnPath, .links, .exercise]
  | .baseTick => .timeBase :: housekeepingParts
  | .housekeepingTick => housekeepingParts
  | .limitEvent _ => .timers :: composeParts
  | .carStale _ => .cars :: .timers :: composeParts
  | .promptExpired _ _ => .queues :: .counters :: composeParts
  | .markerReachesZero _ _ => .queues :: composeParts
  | .dispatchLost => .loss :: composeParts
  | .keepAliveDue _ | .faultedRetryDue _ => .health :: pickParts
  | .forwardingDecision _ _ | .frameSilence => [.receiver, .cPort, .counters, .flags] ++ pickParts
  | .frameComplete _ => allBut [.pending, .reset, .timeBase, .straps]
  | .brokenFrame _ _ | .entryCrc8Arrives _ | .writeStartIndexArrives _ _ _ => streamParts
  | .carState _ => [.cars, .queues, .timers] ++ frameParts
  | .assign _ => [.queues, .timers] ++ frameParts
  | .cancel _ => .queues :: frameParts
  | .noticeOn _ => [.notices, .queues, .timers] ++ frameParts
  | .noticeOff _ => .notices :: frameParts
  | .cadenceSync _ => .timers :: frameParts
  | .tableWrite _ _ _ => storeParts ++ frameParts
  | .tableContinue _ _ _ => [.draws] ++ storeParts ++ frameParts
  | .tableRead _ _ _ | .stateReadNode _ _ | .stateReadCar _ _ _ | .stateReadKiosk _ _ _ | .stateReadNotices _ _
  | .stateReadExercise _ _ | .counterReadKeep _ _ | .counterReadClear _ _ | .alertClear _ _ _ => .openWrite :: frameParts
  | .stateReadPanels _ _ _ _ => [.openWrite, .health] ++ frameParts
  | .alertMask _ _ _ => [.openWrite, .mask] ++ frameParts
  | .bankSelect _ _ _ => [.openWrite, .selected] ++ frameParts
  | .exerciseStart _ _ _ | .exerciseStop _ _ _ => .openWrite :: frameParts
  | .nodeReset _ _ _ => [.openWrite, .cars, .queues, .notices, .timers, .health] ++ frameParts
  | .addressSet _ _ _ => [.openWrite, .address] ++ frameParts
  | .returnFrame _ | .returnFrameSilence => [.counters, .flags] ++ pickParts
  | .uTransmitEnd | .schedulerPick _ | .lastLineSent _ => pickParts
  | .phaseFrameEnd _ | .panelLinkAbortSent _ => composeParts
  | .exerciseFrameSent _ => .exercise :: pickParts
  | .replyWindowEnd _ | .replyFrameBroken _ | .ack _ _ | .echo _ _ => outcomeParts

/-! ### Laws of one state -/

/-- R180: every counter lies between 0 and 65,535. -/
def State.CountersBounded (s : State) : Prop := ∀ k : Fin 16, s.mgmt.counters[k] ≤ Config.counterMax

/-- R182: the newly raised set holds flags that are set and enabled. -/
def State.NewlyRaisedOk (s : State) : Prop := s.mgmt.newly &&& ~~~(s.mgmt.flags &&& s.mgmt.mask) = 0

/-- R47: a queue holds at most 8 records and never two with the same ticket. -/
def State.QueuesOk (s : State) : Prop :=
  ∀ k : KioskIx, (s.queue k).length ≤ Config.queueMax ∧ ((s.queue k).map Prompt.ticket).Nodup

/-- R62: no disabled kiosk, and no kiosk whose zone an active EVACUATION or RECALL notice covers, holds a record. -/
def State.ClosedKiosksEmpty (s : State) : Prop :=
  ∀ k : KioskIx, (s.kioskEntry k).enabled = false ∨ s.kioskClosed k = true → s.queue k = []

/-- R71: every index of the active set names an enabled entry. -/
def State.ActiveEnabled (s : State) : Prop := ∀ n : NoticeIx, s.isActive n = true → (s.noticeEntry n).enabled = true

/-- A displayed floor is NONE or in the deck's candidate set. -/
def State.FloorOk (s : State) (c : CarIx) (d : DeckRec) : Prop := ∀ f, d.floor = some f → s.candidate c f = true

/-- R12, with R6: a present car's decks display NONE or a candidate, and nothing for an upper deck the car has not; a car that
is not present has the reset values. -/
def State.CarsOk (s : State) : Prop :=
  ∀ c : CarIx,
    if (s.car c).present = true then
      s.FloorOk c (s.car c).lower
        ∧ (if s.doubleDeck c = true then s.FloorOk c (s.car c).upper else (s.car c).upper = .powerOn)
    else s.car c = .powerOn

/-- R90, R88: a count lies between 0 and 65,535, no timer is both running and armed, and a timer of mode OFF is neither. -/
def State.TimersOk (s : State) : Prop :=
  ∀ t : TimerIx,
    (s.timer t).count ≤ 65535 ∧ ¬((s.timer t).running = true ∧ (s.timer t).armed = true)
      ∧ ((s.cadenceEntry t).mode = .off → (s.timer t).running = false ∧ (s.timer t).armed = false)

/-- R166: while loss is asserted the countdown stands at 0. -/
def State.LossOk (s : State) : Prop := s.loss.asserted = true → s.loss.countdown = 0

/-- R164: the delay line holds at most three extra characters, and no more than its length with them. -/
def State.DelayOk (s : State) : Prop :=
  s.cport.extra ≤ Config.maxExtra ∧ s.cport.line.length ≤ Config.delayLength + s.cport.extra

/-- R173, R174: an open write's pointer is an index of its table. -/
def State.OpenWriteOk (s : State) : Prop := ∀ w, s.mgmt.openWrite = some w → w.pointer < entryCount w.table

/-- R31, R30: a panel has a lantern record exactly where its entry and its route in use name one, and of that floor, car and
deck. R36, R39: a record in DARK holds nothing of a visit, a pending chime has been given, and only a pending chime has a
version. -/
def State.LanternsOk (s : State) : Prop :=
  (∀ p : PanelIx, (s.lantern p).map (fun k => (k.floor, k.car, k.deck)) = s.lanternTarget p)
    ∧ ∀ (p : PanelIx) (k : Lantern), s.lantern p = some k →
        (k.state = .dark → k.given = false) ∧ (k.given = false → k.chime = .none) ∧ (k.chime = .none → k.chimeVersion = none)

/-- R109, R112, R113: every panel's content is what the composition order gives from the inputs as they stand, its route being
that of the bank in use on its own link. -/
def State.ContentsFresh (s : State) : Prop := ∀ p : PanelIx, (s.content p).content.same (s.compose p) = true

/-- The exercise runs on the link. -/
def State.runs (s : State) (l : LinkIx) : Bool := s.exercise.state == .running && s.exercise.link == l

/-- R129, R135, R148, R151: what stands on a line agrees with its activity. In particular no refresh sequence is in flight on a
link that runs an exercise, and a PHASE frame or ABORT on it is one the first exercise frame waits for. -/
def State.LinkOk (s : State) (l : LinkIx) : Prop :=
  let k := s.link l
  match k.activity with
  | .idleFill => k.sequence = none ∧ k.phaseOnLine = none ∧ k.aborting = false ∧ s.runs l = false
  | .sendingSequence => k.phaseOnLine = none ∧ s.runs l = false ∧ k.sequence.isNone = k.aborting
  | .awaitingAck => k.sequence.isSome = true ∧ k.phaseOnLine = none ∧ k.aborting = false ∧ s.runs l = false
  | .sendingPhase => k.sequence = none ∧ s.runs l = false ∧ k.phaseOnLine.isNone = k.aborting
  | .exercise =>
    k.sequence = none
      ∧ (if s.runs l = true then
          ¬(k.phaseOnLine.isSome = true ∧ k.aborting = true) ∧ s.exercise.flight.isNone = k.occupied
        else k.phaseOnLine = none ∧ k.aborting = true)

/-- R149, R151: every link is consistent, a sequence in flight is to a panel of its link, and start pending and RUNNING are
not both set. -/
def State.LinksOk (s : State) : Prop :=
  (∀ l : LinkIx, s.LinkOk l) ∧ (∀ l : LinkIx, ∀ q, (s.link l).sequence = some q → panelLink q.panel = l)
    ∧ ¬(s.exercise.state = .running ∧ s.exercise.startPending = true)

/-- R167, R168: a slot being received, kept or sent is the one the receiver, the order of kept frames or the transmitter names,
and each kept frame has one place. -/
def State.SlotsOk (s : State) : Prop :=
  (s.up.order ++ (match s.up.tx with | some (.returned i) => [i] | _ => [])).Nodup
    ∧ ∀ i : Fin 2,
        match s.up.slots[i] with
        | .free => i ∉ s.up.order ∧ s.up.tx ≠ some (.returned i) ∧ s.up.crx ≠ .receiving i
        | .receiving => i ∉ s.up.order ∧ s.up.tx ≠ some (.returned i) ∧ s.up.crx = .receiving i
        | .kept _ => (i ∈ s.up.order ∨ s.up.tx = some (.returned i)) ∧ s.up.crx ≠ .receiving i

/-- R168: while the part runs, nothing waits for a transmitter that sends nothing. -/
def State.UpSettled (s : State) : Prop :=
  s.inReset = false → s.up.tx = none → s.up.reply = none ∧ s.up.order = [] ∧ s.mgmt.alertPending = false

/-! ### Ranges of the tables (R172, R190, R191) -/

/-- A label or text: of its length, every character from 32 to 126. -/
def textOk (n : Nat) (bs : List Byte) : Prop := bs.length = n ∧ ∀ b ∈ bs, 32 ≤ b.toNat ∧ b.toNat ≤ 126

def Profile.Ok (e : Profile) : Prop :=
  (1 ≤ e.vmin ∧ e.vmin ≤ 500) ∧ e.lead ≤ 2000 ∧ (1 ≤ e.leadCap ∧ e.leadCap ≤ 4000)
    ∧ (1 ≤ e.hysteresis ∧ e.hysteresis ≤ 500) ∧ (1 ≤ e.window ∧ e.window ≤ 100)
    ∧ (∀ v ∈ [e.staleTime, e.promptHold, e.withdrawnHold, e.markerTime, e.lossTimeout, e.keepAlive, e.retry],
        1 ≤ v ∧ v ≤ 255)
    ∧ (∀ v ∈ [e.assertThreshold, e.clearThreshold], 1 ≤ v ∧ v ≤ 15)

def FloorEntry.Ok (e : FloorEntry) : Prop := e.level ≤ Config.maxPosition ∧ textOk 4 e.label

def CarEntry.Ok (e : CarEntry) : Prop :=
  textOk 2 e.label ∧ e.deckOffset ≤ 8000 ∧ e.leadTime ≤ 2000 ∧ e.leadCap ≤ 4000 ∧ e.hysteresis ≤ 500
    ∧ e.levelWindow ≤ 100 ∧ e.staleTime ≤ 255 ∧ e.lanternLead ≤ 3

def KioskEntry.Ok (e : KioskEntry) : Prop := e.hold ≤ 255 ∧ e.withdrawnHold ≤ 255

def PanelEntry.Ok (e : PanelEntry) : Prop := (1 ≤ e.lines ∧ e.lines ≤ 8) ∧ (4 ≤ e.columns ∧ e.columns ≤ 20)

def Route.Ok (e : Route) : Prop := e.a ≤ 255 ∧ e.b ≤ 255 ∧ 1 ≤ e.count ∧ e.count ≤ 8

/-- R192: a disabled entry has class EVACUATION and cadence CT0. -/
def NoticeEntry.Ok (e : NoticeEntry) : Prop := e.enabled = false → e.cls = .evacuation ∧ e.cadence = .ct 0

/-- R87: CT3 counts the base tick; limits fill their fields. -/
def CadenceEntry.Ok (t : TimerIx) (e : CadenceEntry) : Prop :=
  e.limitA ≤ 65535 ∧ e.limitB ≤ 65535 ∧ (t = 3 → e.source = .base)

/-- Every field of every table lies in its range. -/
def Tables.Ok (ts : Tables) : Prop :=
  ts.profile.Ok ∧ (∀ i : FloorIx, ts.floors[i].Ok) ∧ (∀ i : CarIx, ts.cars[i].Ok) ∧ (∀ i : KioskIx, ts.kiosks[i].Ok)
    ∧ (∀ i : PanelIx, ts.panels[i].Ok) ∧ (∀ i : PanelIx, ts.routesA[i].Ok) ∧ (∀ i : PanelIx, ts.routesB[i].Ok)
    ∧ (∀ i : TextIx, textOk 20 ts.texts[i]) ∧ (∀ i : NoticeIx, ts.notices[i].Ok) ∧ ∀ i : TimerIx, ts.cadence[i].Ok i

/-! ### Terms of the statements: counters and flags -/

/-- A count after `n` increments: it stops at 65,535 (R180). -/
def saturated (v n : Nat) : Nat := max v (min (v + n) Config.counterMax)

/-- Every counter stands at what it held and the given increments. -/
def Counted (s t : State) (n : CounterId → Nat) : Prop := ∀ k, t.mgmt.counter k = saturated (s.mgmt.counter k) (n k)

/-- `n` increments of one counter. -/
def times (k : CounterId) (n : Nat) : CounterId → Nat := fun j => if j = k then n else 0

/-- 1 where a whole frame that begins now breaks one being received (R161), and 0 otherwise. -/
def State.breaksNow (s : State) : Nat := if s.rx.inFrame && !s.rx.data.isEmpty then 1 else 0

/-- The increments of a whole good frame: the good frame, a frame it breaks, and what its own rule counts (R161, R162). -/
def frameCounts (s : State) (own : CounterId → Nat) : CounterId → Nat :=
  fun k => times .goodFrames 1 k + times .brokenFrames s.breaksNow k + own k

/-- The alert flag is set. -/
def State.flag (s : State) (a : AlertId) : Prop := s.mgmt.flags.getLsbD a.bit = true

/-- A frame that is received but not acted on: it is counted, and nothing changes but what every good frame changes. -/
def Dropped (s t : State) (k : CounterId) : Prop := OnlyIn frameParts s t ∧ Counted s t (frameCounts s (times k 1))

/-! ### Terms of the statements: requests and their replies (R171) -/

/-- The part takes a request: the reset pin is not held low (R183), and for a request to this node its address is one a frame
can name (R169) and no REPLY is pending (R171). -/
def State.Takes (s : State) (dest : Dest) : Prop :=
  s.inReset = false ∧ (dest = .own → s.up.reply = none ∧ s.mgmt.address ≤ 62)

/-- Before its END a whole frame of this kind may have made the free transmitter begin another frame: at an entry it carries, or at
its START, where that breaks a frame and its count saturates, or brings up what was left waiting (R168, log 5). -/
def State.PicksEarly (s : State) (kind : Byte) : Prop :=
  kind = kindTableWrite ∨ kind = kindTableContinue
    ∨ (s.breaksNow = 1 ∧ (s.mgmt.counter .brokenFrames = 65534 ∨ ¬s.UpSettled))

/-- The REPLY to a request of this kind stands in the state (R168): pending behind the frame on U; where the transmitter was free,
being sent, or pending behind the frame, with nothing kept waiting an ALERT, that an event before the END made it begin. -/
def Replied (s t : State) (kind : Byte) (f : UpFrame) : Prop :=
  match s.up.tx with
  | some x => t.up.tx = some x ∧ t.up.reply = some f
  | none => (t.up.tx = some (.reply f) ∧ t.up.reply = none)
      ∨ (s.PicksEarly kind ∧ t.up.reply = some f ∧ ∃ x, t.up.tx = some x ∧ (s.up.order = [] → ∃ g, x = .alert g))

/-- A REPLY of this kind of request: who answers, the tag, the request, the result, and the data after the summary (R188). -/
def UpFrame.Answers (f : UpFrame) (source : Nat) (tag kind : Byte) (r : Result) (data : List Byte) : Prop :=
  f.kind = kindReply ∧ f.source = byteOf source ∧ f.tag = tag ∧ f.payload.take 2 = [kind, byteOf r.code]
    ∧ f.payload.drop 4 = data

/-- What a request is answered: one REPLY to a request to this node, none to a request to all nodes. -/
def Told (dest : Dest) (s t : State) (tag kind : Byte) (r : Result) (data : List Byte) : Prop :=
  match dest with
  | .own => ∃ f, Replied s t kind f ∧ f.Answers t.mgmt.address tag kind r data
  | .all => s.up.reply = none → t.up.reply = none ∧ ∀ f, t.up.tx = some (.reply f) → s.up.tx = some (.reply f)

/-! ### Terms of the statements: payloads spelled field by field (R186, R187) -/

/-- CAR STATE. -/
def carStatePayload (c : CarIx) (p2 p1 p0 v1 v0 : Byte) (ent : Entrance) (mode : Mode) (dir : Dir) (next : Byte) : List Byte :=
  [byteOf c.val, p2, p1, p0, v1, v0, byteOf ent.code, byteOf mode.code, byteOf dir.code, next]

/-- The report a CAR STATE payload carries. -/
def carReport (c : CarIx) (p2 p1 p0 v1 v0 : Byte) (ent : Entrance) (mode : Mode) (dir : Dir) (next : Byte) : CarReport :=
  { car := c, position := p2.toNat * 65536 + p1.toNat * 256 + p0.toNat, velocity := (v1 ++ v0 : BitVec 16).toInt
    entrance := ent, mode := mode, direction := dir
    nextStop := if h : next.toNat < 160 then some ⟨next.toNat, h⟩ else none }

/-- ASSIGN. -/
def assignPayload (k : KioskIx) (t1 t0 : Byte) (dest : FloorIx) (car : CarIx) (deck : PromptDeck) (cls : PromptClass) :
    List Byte :=
  [byteOf k.val, t1, t0, byteOf dest.val, byteOf car.val, byteOf deck.code, byteOf cls.code]

/-- The class hold of R49 from a base hold. -/
def holdOfClass (base : Nat) : PromptClass → Nat
  | .standard => base
  | .priority => base
  | .accessible => if 255 < 2 * base then 255 else 2 * base
  | .group => if 255 < 3 * base / 2 then 255 else 3 * base / 2

/-- The car is heard and out of NORMAL service (R52). -/
def State.outOfService (s : State) (c : CarIx) : Bool := (s.car c).present && decide ((s.car c).mode ≠ .normal)

/-- The record an ASSIGN leaves with this marker (R52, R53). -/
def State.promptFor (s : State) (k : KioskIx) (ticket : BitVec 16) (dest : FloorIx) (car : CarIx) (deck : PromptDeck)
    (cls : PromptClass) (marker : Nat) : Prompt :=
  let hold := holdOfClass (s.effHold k) cls
  { ticket := ticket, destination := dest, car := car, deck := deck, cls := cls, marker := marker
    hold := if s.outOfService car then min hold (s.effWithdrawnHold k) else hold, withdrawn := s.outOfService car }

/-- A timer's state after a retrigger event of a kind has reached the timers (R95). -/
def State.retriggered (s : State) (k : Retrigger) (i : TimerIx) : Timer :=
  let x := s.timer i
  if (s.cadenceEntry i).retrigger ≠ k ∨ (s.cadenceEntry i).mode = .off then x
  else if x.running then { x with count := 0 }
  else if x.armed then { x with armed := false, running := true }
  else x

/-- The count a timer's current limit stands for: limit B in phase B of ALTERNATE mode, limit A otherwise, 0 standing for
65,536 (R90). -/
def limitOf (e : CadenceEntry) (x : Timer) : Nat :=
  let limit := if e.mode = .alternate ∧ x.phase = .b then e.limitB else e.limitA
  if limit = 0 then 65536 else limit

/-- A timer after one source event (R89, R90, R91). -/
def Timer.afterSource (e : CadenceEntry) (x : Timer) : Timer :=
  let ends := e.mode ≠ .alternate ∨ x.phase = .b
  if x.running = false then x
  else if x.count + 1 = limitOf e x then
    { count := 0, phase := if e.mode = .alternate then (if x.phase = .a then .b else .a) else x.phase
      cycle := if ends then x.cycle + 1 else x.cycle, running := decide ¬(ends ∧ e.oneShot = true)
      armed := if ends ∧ e.oneShot = true then decide (e.retrigger ≠ .none) else x.armed }
  else { x with count := if x.count = 65535 then 0 else x.count + 1 }

/-- A timer that its entry has restarted: the table of R93. -/
def restarted (e : CadenceEntry) : Timer :=
  { count := 0, phase := .a, cycle := 0
    running := decide (e.mode ≠ .off ∧ (e.oneShot = false ∨ e.retrigger = .none))
    armed := decide (e.mode ≠ .off ∧ e.oneShot = true ∧ e.retrigger ≠ .none) }

/-! ### Terms of the statements: entrances and lanterns (chapters 1 and 2) -/

/-- The magnitude of the difference of two levels or positions. -/
def apart (a b : Nat) : Nat := ((a : Int) - (b : Int)).natAbs

/-- The car moves at the velocity a frame reports, already in its range (R11). -/
abbrev State.movesAt (s : State) (v : Int) : Prop := v ≠ 0 ∧ s.profile.vmin ≤ v.natAbs

/-- R57: the decks of records that an event of the deck matches. -/
def PromptDeck.boards (event : PromptDeck) (record : PromptDeck) : Bool :=
  match event, record with
  | .single, _ => true
  | .lower, .upper => false
  | .upper, .lower => false
  | _, _ => true

/-- R58: whether a destination lies the way an event's recorded direction goes from its floor. -/
def wayTo (dir : Dir) (floor destination : FloorIx) : Bool :=
  match dir with
  | .up => decide (floor < destination)
  | .down => decide (destination < floor)
  | .none => true

/-- The deck that an event of a car's deck names (R26). -/
def State.eventDeck (s : State) (c : CarIx) (k : Deck) : PromptDeck :=
  if s.doubleDeck c then (if k = .lower then .lower else .upper) else .single

/-- The decks a car has. -/
def State.decksOf (s : State) (c : CarIx) : List Deck := if s.doubleDeck c then [.lower, .upper] else [.lower]

/-- R37: the record's stopping floor is `f`. -/
def State.StopsAt (s : State) (k : Lantern) (f : FloorIx) : Prop :=
  ∃ n : FloorIx, (s.car k.car).nextStop = some n ∧ (s.floorEntry n).defined = true ∧ (∃ g, s.candidate k.car g = true)
    ∧ if k.deck = .upper ∧ (s.carEntry k.car).deckOffset ≠ 0 then
        let x := min (s.level n + (s.carEntry k.car).deckOffset) 1048575
        s.candidate k.car f = true
          ∧ ∀ g, s.candidate k.car g = true →
              apart x (s.level f) < apart x (s.level g) ∨ (apart x (s.level f) = apart x (s.level g) ∧ f ≤ g)
      else f = n

/-- R36: one of a frame's entrance-closed events names the record: its car, its floor, and a deck that matches. -/
abbrev Lantern.LeftIn (k : Lantern) (evs : List ClosedEvent) : Prop :=
  ∃ e ∈ evs, e.car = k.car ∧ e.floor = k.floor
    ∧ (e.deck = .single ∨ (e.deck = .lower ∧ k.deck = .lower) ∨ (e.deck = .upper ∧ k.deck = .upper))

/-- R32 to R37: the state that an evaluation of the record gives, its state before the evaluation being its own, in a frame with
the given entrance-closed events: a record that one of them names is neither ARRIVED nor CLOSING (R36). -/
def State.LanternRule (s : State) (evs : List ClosedEvent) (k : Lantern) (st : LanternState) : Prop :=
  let r := s.car k.car
  let d := if k.deck = .upper ∧ (s.carEntry k.car).deckOffset ≠ 0 then r.upper else r.lower
  let lit := r.present = true ∧ r.stale = false ∧ r.mode = .normal ∧ (s.floorEntry k.floor).defined = true
  let arrived := ¬k.LeftIn evs ∧ (if d.openFloor.isSome then d.openFloor
    else if d.atFloor = true ∧ (r.entrance = .opening ∨ r.entrance = .closing) then d.floor else none) = some k.floor
  let pd := s.deckPosition k.car k.deck
  let toward := s.movesAt r.velocity ∧ ((0 < r.velocity ∧ pd < s.level k.floor) ∨ (r.velocity < 0 ∧ s.level k.floor < pd))
  (st = .arrived ↔ lit ∧ arrived ∧ (r.entrance = .open ∨ r.entrance = .opening))
    ∧ (st = .closing ↔ lit ∧ arrived ∧ r.entrance = .closing)
    ∧ (st = .announcing ↔ lit ∧ ¬(arrived ∧ r.entrance ≠ .closed) ∧ s.StopsAt k k.floor ∧ r.direction ≠ .none
        ∧ ∃ D, d.floor = some D ∧ apart D.val k.floor.val ≤ (s.carEntry k.car).lanternLead
            ∧ (toward ∨ (¬s.movesAt r.velocity ∧ r.entrance = .closed ∧ (D ≠ k.floor ∨ k.state = .announcing))))

/-- The record after a return to DARK, which ends its visit (R36). -/
def Lantern.ended (k : Lantern) : Lantern :=
  { k with state := .dark, chime := .none, given := false, chimeVersion := none, chimeRound := false }

/-- The record after a frame's entrance-closed events: one of its car, floor and deck ends its visit (R36). -/
def Lantern.afterEvents (k : Lantern) (evs : List ClosedEvent) : Lantern :=
  if k.state ≠ .dark ∧ k.LeftIn evs then k.ended else k

/-- R39: an evaluation into `st` with committed direction `dir` requests the chime. -/
abbrev Lantern.Chimes (k : Lantern) (st : LanternState) (dir : Dir) : Prop :=
  dir ≠ .none ∧ ((st = .announcing ∧ k.state = .dark) ∨ (st = .arrived ∧ k.given = false))

/-- R40: an ACK of version `a` covers the record's pending chime, the panel's content being at version `v`. That every version
covers once the versions have come round is log 11. -/
def Lantern.Covers (k : Lantern) (a v : Byte) : Prop :=
  k.chime ≠ .none ∧ ∃ w, k.chimeVersion = some w ∧ (k.chimeRound = true ∨ (a - w).toNat ≤ (v - w).toNat)

/-! ### Terms of the statements: tables and lines -/

/-- Entries stored one after another from an index on, the table's last index followed by 0, and the fields changed to bring
them into range (R174, R172). -/
def Tables.storeAll (T : Fin 11) : Nat → List (List Byte) → Tables → Clamped Tables
  | _, [], ts => (ts, 0)
  | i, e :: es, ts =>
    let (ts1, n1) := ts.store T i e
    let (ts2, n2) := Tables.storeAll T ((i + 1) % entryCount T) es ts1
    (ts2, n1 + n2)

/-- Entries as a TABLE WRITE carries them, each followed by its CRC-8 (R173). -/
def entriesOnLine (es : List (List Byte)) : List Byte := es.flatMap fun e => e ++ [crc8 e]

/-- No candidate lies strictly between two floors. -/
def nextTo (cand : FloorIx → Bool) (a b : FloorIx) : Prop := ∀ f, a < f → f < b → cand f = false

/-- R17 toward higher floors: every step from `d` to `d'` passed its midpoint by the hysteresis, and the next would not. -/
def SteppedUp (cand : FloorIx → Bool) (level : FloorIx → Nat) (pe hyst : Nat) (goal d d' : FloorIx) : Prop :=
  d ≤ d' ∧ d' ≤ goal ∧ (d' = d ∨ cand d' = true)
    ∧ (∀ a b, d ≤ a → a < b → b ≤ d' → (a = d ∨ cand a = true) → cand b = true → nextTo cand a b →
        (level a + level b) / 2 + hyst ≤ pe)
    ∧ (d' ≠ goal → ∀ b, d' < b → cand b = true → nextTo cand d' b → pe < (level d' + level b) / 2 + hyst)

/-- R17 toward lower floors. -/
def SteppedDown (cand : FloorIx → Bool) (level : FloorIx → Nat) (pe hyst : Nat) (goal d d' : FloorIx) : Prop :=
  d' ≤ d ∧ goal ≤ d' ∧ (d' = d ∨ cand d' = true)
    ∧ (∀ a b, d' ≤ b → b < a → a ≤ d → (a = d ∨ cand a = true) → cand b = true → nextTo cand b a →
        pe + hyst ≤ (level a + level b) / 2)
    ∧ (d' ≠ goal → ∀ b, b < d' → cand b = true → nextTo cand b d' → (level d' + level b) / 2 < pe + hyst)

/-- How far an address lies after the last served one, counting on from it with 14 followed by 0 (R138). -/
def afterServed (last a : Addr) : Nat := (a - 1 - last).val

/-- The line has fallen free and no run and no adoption waits for it: what follows is the pick of its scheduler (R136). -/
def State.lineUnclaimed (s : State) (l : LinkIx) : Prop :=
  s.adoptionPending l = false ∧ ¬(s.exercise.startPending = true ∧ s.exercise.link = l)

/-- The command carries out a NODE RESET, by its row or as the frame that it completes (R184). -/
def State.carriesReset (s : State) (c : Instr) : Prop :=
  (∃ dest tag, c = .nodeReset dest tag [])
    ∨ ∃ cs, c = .frameComplete cs ∧ ((if s.rx.inFrame then s.rx.data else []) ++ dataOf cs).head? = some kindNodeReset

/-- A frame stands on the line: of a refresh sequence being sent, a PHASE frame, or an exercise frame not yet at its END; or an
ABORT is going out (R148). -/
def State.Sending (s : State) (l : LinkIx) : Prop :=
  (s.link l).aborting = true ∨ ((s.link l).activity = .sendingSequence ∧ (s.link l).sequence ≠ none)
    ∨ (s.link l).phaseOnLine ≠ none ∨ (s.exerciseInFlight l = true ∧ s.exercise.awaiting = false)

/-- The frame is a panel's ACK: its check passes, it has an ACK's length and kind, and the panel's address (R131). -/
def isAckOf (p : PanelIx) (data : List Byte) : Prop :=
  crcPasses data = true ∧ data.length = 7 ∧ data.getD 0 0 = 8 ∧ (data.getD 1 0).toNat = (panelAddr p).val

/-- The frame is an echo of the exercised panel: kind, address and payload length (R153). -/
def isEchoOf (a : Addr) (data : List Byte) : Prop :=
  data.length = 20 ∧ data.getD 0 0 = 9 ∧ (data.getD 1 0).toNat = a.val

end Sys2Proof.Machine
end

