-- ==== Sys2Proof/Certificates/Slice0/Obligations.lean ====
section
/-! DEFINITION. The statements for the provers. Each docstring names the spec's rules; log numbers are those of NOTES.md. -/

open Sys2Proof Sys2Proof.Machine

/-! ### The step, the frame of every command, and the resets -/

/-- The queue of commands (log 22): a step runs the command at its front; on an empty queue the part idles. -/
def Obligations.StepRunsTheFrontCommand : Prop :=
  (∀ (c : Instr) (rest : List Instr) (s : State), step { s with pending := c :: rest } = exec c { s with pending := rest })
    ∧ ∀ s : State, s.pending = [] → step s = .next s

/-- Every command answers a next state, and leaves every part of the state but those `touched` lists for it, the waiting
commands among them. The lists follow the rules that own each command, but for these entries, which are the model's choice: a row
that names an event of a tick or of a frame changes its one object alone (log 4); HOUSEKEEPING_TICK leaves the time base (log 6);
RESET_PIN_LOW keeps all it does not cut off until the release (log 20); POWER_ON_RESET keeps the count of the free values taken
(log 16). The picks after every event are log 5, and a frame's row is its whole reception (log 3). -/
def Obligations.EveryCommandKeepsItsFrame : Prop :=
  ∀ (c : Instr) (s : State), ∃ t, exec c s = .next t ∧ OnlyIn (touched c) s t

/-- R183, R169 and the power-on values of each chapter (R6, R30, R47, R71, R101, R106, R111, R129, R149, R166, R168, R190); and
R183's pin held low: nothing is sent on any link and nothing is taken. Two clauses are the model's choice: that the delay line is
empty at the release and while the pin is low (log 7: a part's line holds IDLE), and what of the stored state is kept until the
release (log 20). -/
def Obligations.ResetPinAndPowerOn : Prop :=
  (∀ (straps : BitVec 6) (s : State), ∃ t, exec (.powerOnReset straps) s = .next t
     ∧ t.pending = s.pending ∧ t.inReset = false
     ∧ t.mgmt.strap = straps ∧ t.mgmt.address = (if straps = 63#6 then 62 else straps.toNat)
     ∧ t.mgmt.selected = .a ∧ t.mgmt.openWrite = none ∧ (∀ k, t.mgmt.counter k = 0)
     ∧ (∀ a : AlertId, ¬t.flag a) ∧ (∀ a : AlertId, t.mgmt.mask.getLsbD a.bit = true) ∧ t.mgmt.alertPending = false
     ∧ t.loss = { asserted := true, countdown := 0 }
     ∧ t.up.reply = none ∧ t.up.tx = none ∧ (∀ i : Fin 2, t.up.slots[i] = .free) ∧ t.up.order = [] ∧ t.up.turn = .returns
     ∧ t.up.crx = .outside ∧ t.rx.inFrame = false ∧ t.cport.line = []
     ∧ (∀ c : CarIx, t.car c =
         { present := false, stale := false, position := 0, velocity := 0, entrance := .closed, mode := .normal
           direction := .none, nextStop := none, lower := { floor := none, atFloor := false, openFloor := none }
           upper := { floor := none, atFloor := false, openFloor := none }, recDir := .none, staleCountdown := 0
           snapPending := true })
     ∧ (∀ p, t.lantern p = none) ∧ (∀ k, t.queue k = []) ∧ (∀ n, t.isActive n = false) ∧ t.baseCount = 0
     ∧ (∀ i, t.timer i = { count := 0, phase := .a, cycle := 0, running := false, armed := false })
     ∧ (∀ p : PanelIx, (t.content p).content.kind = .off ∧ (t.content p).version = 0 ∧ (t.content p).acked = none
         ∧ (t.content p).ackedUrgent = false ∧ (t.content p).held = none ∧ (t.content p).mismatch = false)
     ∧ (∀ l : LinkIx, (t.link l).activity = .idleFill ∧ (t.link l).sequence = none ∧ (t.link l).phasePending = false
         ∧ (t.link l).lastServed = 14 ∧ (t.link l).fault = false ∧ (t.link l).bank = .a)
     ∧ (∀ p : PanelIx, (t.healthOf p).misses = 0 ∧ (t.healthOf p).goods = 0 ∧ (t.healthOf p).faulted = false
         ∧ (t.healthOf p).delta = false ∧ (t.healthOf p).keepAlive = 0 ∧ (t.healthOf p).retry = 0)
     ∧ t.exercise.state = .idle ∧ t.exercise.startPending = false ∧ t.exercise.endRequested = false
     ∧ (∀ c, (t.carEntry c).enabled = false) ∧ (∀ f, (t.floorEntry f).defined = false ∧ (t.floorEntry f).level = 0)
     ∧ (∀ k, (t.kioskEntry k).enabled = false) ∧ (∀ p, (t.panelEntry p).enabled = false)
     ∧ (∀ p, (t.routeInUse p).kind = .off) ∧ (∀ n, (t.noticeEntry n).enabled = false)
     ∧ (∀ i, (t.cadenceEntry i).mode = .off) ∧ (∀ x, t.text x = List.replicate 20 32#8)
     ∧ t.profile.vmin = 50 ∧ t.profile.lead = 400 ∧ t.profile.leadCap = 2500 ∧ t.profile.lossTimeout = 20)
    ∧ (∀ s : State, ∃ t, exec .resetPinLow s = .next t ∧ t.inReset = true ∧ t.rx.inFrame = false ∧ t.cport.line = []
        ∧ t.up.tx = none ∧ t.up.crx = .outside
        ∧ (∀ l : LinkIx, (t.link l).activity = .idleFill ∧ (t.link l).sequence = none ∧ (t.link l).phaseOnLine = none)
        ∧ t.exercise.state = .idle ∧ OnlyIn [.reset, .receiver, .cPort, .returnPath, .links, .exercise] s t)
      ∧ ∀ (c : Instr) (s : State), s.inReset = true → (∀ straps, c ≠ .powerOnReset straps) → c ≠ .resetPinLow →
          exec c s = .next s

/-- R184, with R6, R69, R71, R93, R102, R126, R148, R159 (the order of the restart: log 24). A link that was sending ends its frame
with ABORT, keeping its activity until that has gone out (log 18); on every other the first pick follows in the same command
(log 5): a PHASE frame where an enabled panel's content references a timer, otherwise a sequence to its enabled panel of lowest
address. -/
def Obligations.NodeResetClearsAndKeeps : Prop :=
  ∀ (dest : Dest) (tag : Byte) (s : State), s.Takes dest → ∃ t, exec (.nodeReset dest tag []) s = .next t
    ∧ (∀ c, t.car c = .powerOn) ∧ (∀ k, t.queue k = []) ∧ (∀ n, t.isActive n = false)
    ∧ (∀ p, t.healthOf p = .powerOn) ∧ t.exercise = .powerOn ∧ (∀ k, t.mgmt.counter k = 0) ∧ t.mgmt.openWrite = none
    ∧ (∀ a : AlertId, a ≠ .routeMismatch → ¬t.flag a ∧ t.mgmt.newly.getLsbD a.bit = false)
    ∧ t.loss = { asserted := false, countdown := s.profile.lossTimeout }
    ∧ (∀ i, t.timer i = restarted (s.cadenceEntry i))
    ∧ (∀ l : LinkIx,
        let referenced := ∃ i : TimerIx, t.linkReferences l i = true
        (t.link l).bank = s.mgmt.selected ∧ (t.link l).fault = false
        ∧ (s.Sending l → t.link l =
            { activity := (s.link l).activity, sequence := none, phaseOnLine := none, aborting := true
              phasePending := decide referenced, lastServed := 14, fault := false, bank := s.mgmt.selected })
        ∧ (¬s.Sending l → referenced → t.link l =
            { activity := .sendingPhase, sequence := none, phaseOnLine := some t.phases, aborting := false
              phasePending := false, lastServed := 14, fault := false, bank := s.mgmt.selected })
        ∧ (¬s.Sending l → ¬referenced → (t.link l).aborting = false ∧ (t.link l).phasePending = false
            ∧ (t.link l).sequence.map Sequence.panel = (linkPanels l).find? fun p => (s.panelEntry p).enabled))
    ∧ (∀ p : PanelIx, (t.content p).acked = none ∧ (t.content p).ackedUrgent = false ∧ (t.content p).held = none)
    ∧ (∀ p k, t.lantern p = some k → k.state = .dark ∧ k.chime = .none)
    ∧ t.up.slots = s.up.slots ∧ t.up.turn = s.up.turn ∧ t.up.crx = s.up.crx
    ∧ (s.up.tx.isSome = true → t.up.tx = s.up.tx ∧ t.up.order = s.up.order ∧ (dest = .all → t.up.reply = s.up.reply))
    ∧ Told dest s t tag kindNodeReset .accepted []
    ∧ OnlyIn (touched (.nodeReset dest tag [])) s t

/-! ### The ticks -/

/-- R86, R89 to R92, R94: a base tick is counted by every timer of source BASE, and by a timer chained to CT3 where it is CT3's
limit event. A timer that is not running stands; a running one counts one more, returns to 0 at its limit with what a limit event
brings, and passes 65,535 to 0 without one where the limit is another. Every hundredth base tick is a housekeeping tick besides,
taken after the timers (log 6). -/
def Obligations.BaseTickCountsTheTimers : Prop :=
  (∀ s : State, s.inReset = false → s.baseCount + 1 < 100 → ∃ t, exec .baseTick s = .next t
      ∧ t.baseCount = s.baseCount + 1
      ∧ (∀ i : TimerIx, t.timer i =
          if s.chained i = true ∧ ¬((s.timer 3).running = true ∧ (s.timer 3).count + 1 = limitOf (s.cadenceEntry 3) (s.timer 3))
          then s.timer i else (s.timer i).afterSource (s.cadenceEntry i))
      ∧ OnlyIn (.timeBase :: .timers :: composeParts) s t)
    ∧ ∀ s : State, s.inReset = false → 100 ≤ s.baseCount + 1 →
        exec .baseTick s = exec .housekeepingTick ((tickTimers s).setBaseCount 0)

/-- R90, R91, R99: the source event that reaches the current limit (0 standing for 65,536). A PHASE frame that becomes due
on a free line begins in the same command (log 5). That every link referencing the timer before the command gets its frame is
the model's choice in two points: a link's frame is raised before the recompositions of R100 (log 33), and CT3 toggles before its
chained timers count (log 28). -/
def Obligations.LimitEventTogglesOrEndsCycle : Prop :=
  ∀ (i : TimerIx) (s : State), s.inReset = false → (s.timer i).running = true → (s.cadenceEntry i).mode ≠ .off →
    let e := s.cadenceEntry i
    let x := s.timer i
    let limit := if e.mode = .alternate ∧ x.phase = .b then e.limitB else e.limitA
    let ends := e.mode = .single ∨ x.phase = .b
    x.count + 1 = (if limit = 0 then 65536 else limit) → ∃ t, exec (.limitEvent i) s = .next t
      ∧ t.timer i =
          { count := 0, phase := if e.mode = .alternate then x.phase.toggle else x.phase
            cycle := if ends then x.cycle + 1 else x.cycle, running := if ends ∧ e.oneShot = true then false else true
            armed := if ends ∧ e.oneShot = true then e.retrigger != .none else x.armed }
      ∧ (∀ j, j ≠ i → t.timer j =
          if i = 3 ∧ s.chained j = true then countTimer (s.cadenceEntry j) (s.timer j) else s.timer j)
      ∧ (e.mode = .alternate → ∀ l : LinkIx, s.linkReferences l i = true →
          (t.link l).phasePending = true ∨ (t.link l).activity = .sendingPhase)
      ∧ OnlyIn (.timers :: composeParts) s t

/-- R21, R166, R139, R140: the stale countdowns, the loss countdown and the panels' keep-alive and retry countdowns at a
housekeeping tick. That a panel is judged clean after the cars, the prompts and the loss of the same tick is the model's choice
(log 8: R86 gives no order), and so is that the row leaves the time base (log 6). -/
def Obligations.HousekeepingTickAgesCarsLossAndPanels : Prop :=
  (∀ s : State, s.inReset = false → ∃ t, exec .housekeepingTick s = .next t
     ∧ (∀ c : CarIx, t.car c =
         let r := s.car c
         if r.present = true ∧ r.stale = false then
           if r.staleCountdown ≤ 1 then { r with staleCountdown := 0, stale := true, snapPending := true }
           else { r with staleCountdown := r.staleCountdown - 1 }
         else r)
     ∧ OnlyIn housekeepingParts s t)
    ∧ ∀ s : State, s.inReset = false → ∃ t, exec .housekeepingTick s = .next t
      ∧ t.loss = (if s.loss.asserted = true then s.loss
          else if s.loss.countdown ≤ 1 then { asserted := true, countdown := 0 }
          else { asserted := false, countdown := s.loss.countdown - 1 })
      ∧ (s.loss.asserted = false → t.loss.asserted = true → t.flag .dispatchLost)
      ∧ ∀ p : PanelIx, t.healthOf p =
          let h := s.healthOf p
          if (s.panelEntry p).enabled = true ∧ h.faulted = false ∧ (t.content p).acked = some (t.content p).version then
            { h with keepAlive := h.keepAlive - 1 }
          else if (s.panelEntry p).enabled = true ∧ h.faulted = true then { h with retry := h.retry - 1 }
          else h

/-- R56, R54: the holds and markers at a housekeeping tick. -/
def Obligations.HousekeepingTickAgesPrompts : Prop :=
  ∀ s : State, s.inReset = false → ∃ t, exec .housekeepingTick s = .next t
    ∧ (∀ k : KioskIx, t.queue k =
        ((s.queue k).filter fun r => decide (1 < r.hold)).map fun r =>
          { r with
            hold := r.hold - 1, marker := r.marker - 1
            withdrawn := if (s.car r.car).present = true ∧ (s.car r.car).mode = .normal then false else r.withdrawn })
    ∧ Counted s t (times .promptsExpired
        (allKiosks.map fun k => (s.queue k).countP fun r => decide (r.hold ≤ 1)).sum)

/-- R21, R43, R36, R56, R54, R166, R139, R140 one by one (log 4): a car becomes stale, which ends the visit of every lit lantern of
it; a prompt's hold or marker reaches 0, dispatch loss is asserted, a keep-alive or a retry countdown reaches 0. -/
def Obligations.TickEventsOneByOne : Prop :=
  ((∀ (c : CarIx) (s : State), s.inReset = false → (s.car c).present = true → (s.car c).stale = false →
       (s.car c).staleCountdown ≤ 1 → ∃ t, exec (.carStale c) s = .next t
         ∧ t.car c = { s.car c with staleCountdown := 0, stale := true, snapPending := true }
         ∧ (∀ d, d ≠ c → t.car d = s.car d) ∧ (∀ k, t.queue k = s.queue k) ∧ (∀ i, t.timer i = s.timer i)
         ∧ ∀ (p : PanelIx) (k : Lantern), s.lantern p = some k → k.car = c →
             (k.state ≠ .dark → t.lantern p = some k.ended) ∧ (k.state = .dark → k.chime = .none → t.lantern p = some k))
     ∧ (∀ (k : KioskIx) (ticket : BitVec 16) (s : State), s.inReset = false →
         (∃ r ∈ s.queue k, r.ticket = ticket ∧ r.hold ≤ 1) → ∃ t, exec (.promptExpired k ticket) s = .next t
           ∧ t.queue k = (s.queue k).filter (fun r => decide ¬(r.ticket = ticket ∧ r.hold ≤ 1))
           ∧ (∀ j, j ≠ k → t.queue j = s.queue j)
           ∧ Counted s t (times .promptsExpired
               ((s.queue k).countP fun r => decide (r.ticket = ticket ∧ r.hold ≤ 1))))
     ∧ ∀ (k : KioskIx) (ticket : BitVec 16) (s : State), s.inReset = false →
         (∃ r ∈ s.queue k, r.ticket = ticket ∧ r.marker = 1) → ∃ t, exec (.markerReachesZero k ticket) s = .next t
           ∧ t.queue k = (s.queue k).map (fun r => if r.ticket = ticket ∧ r.marker = 1 then { r with marker := 0 } else r)
           ∧ (∀ j, j ≠ k → t.queue j = s.queue j) ∧ Counted s t fun _ => 0)
    ∧ (∀ s : State, s.inReset = false → s.loss.asserted = false → s.loss.countdown ≤ 1 →
        ∃ t, exec .dispatchLost s = .next t ∧ t.loss = { asserted := true, countdown := 0 } ∧ t.flag .dispatchLost
          ∧ OnlyIn (.loss :: composeParts) s t)
      ∧ (∀ (p : PanelIx) (s : State), s.inReset = false → (s.panelEntry p).enabled = true → (s.healthOf p).faulted = false →
          (s.content p).acked = some (s.content p).version → (s.healthOf p).keepAlive = 1 →
          ∃ t, exec (.keepAliveDue p) s = .next t ∧ t.healthOf p = { s.healthOf p with keepAlive := 0 }
            ∧ (∀ q, q ≠ p → t.healthOf q = s.healthOf q) ∧ OnlyIn (.health :: pickParts) s t)
      ∧ ∀ (p : PanelIx) (s : State), s.inReset = false → (s.panelEntry p).enabled = true → (s.healthOf p).faulted = true →
          (s.healthOf p).retry = 1 → ∃ t, exec (.faultedRetryDue p) s = .next t
            ∧ t.healthOf p = { s.healthOf p with retry := 0 } ∧ (∀ q, q ≠ p → t.healthOf q = s.healthOf q)
            ∧ OnlyIn (.health :: pickParts) s t

/-! ### Cars (chapter 1) -/

/-- R8, and steps 2 and 3 of R9: what an accepted CAR STATE frame stores, and the clamps it counts. -/
def Obligations.CarStateIsStoredInRange : Prop :=
  ∀ (c : CarIx) (p2 p1 p0 v1 v0 : Byte) (ent : Entrance) (mode : Mode) (dir : Dir) (next : Byte) (s : State),
    s.inReset = false → (s.carEntry c).enabled = true →
    let P := p2.toNat * 65536 + p1.toNat * 256 + p0.toNat
    let V : Int := (v1 ++ v0 : BitVec 16).toInt
    ∃ t, exec (.carState (carStatePayload c p2 p1 p0 v1 v0 ent mode dir next)) s = .next t
      ∧ (t.car c).present = true ∧ (t.car c).stale = false ∧ (t.car c).snapPending = false
      ∧ (t.car c).position = (if 1048575 < P then 1048575 else P)
      ∧ (t.car c).velocity = (if 16000 < V then 16000 else if V < -16000 then -16000 else V)
      ∧ (t.car c).entrance = ent ∧ (t.car c).mode = mode ∧ (t.car c).direction = dir
      ∧ (t.car c).nextStop = (if h : next.toNat < 160 then some ⟨next.toNat, h⟩ else none)
      ∧ (t.car c).staleCountdown = s.effStale c
      ∧ (∀ d, d ≠ c → t.car d = s.car d)
      ∧ t.mgmt.counter .inputClamps = saturated (s.mgmt.counter .inputClamps)
          ((if 1048575 < P then 1 else 0) + (if 16000 < V.natAbs then 1 else 0))
      ∧ (s.mgmt.counter .inputClamps < 65535 → t.mgmt.counter .inputClamps = 65535 → t.flag .counterSaturated)

/-- R11, R12, R9 step 4: which decision a frame makes for each deck, on the record as the frame has stored it. R32 to R37: the
state of every lantern record of the car afterwards, the frame's entrance-closed events applied first; a record that one of them
names, lit or dark before, is then neither ARRIVED nor CLOSING (R36 with log 34). R36, R39: the end of a visit, and when a chime is
requested or follows the direction. R42, R95: the LANTERN ARRIVAL retrigger. -/
def Obligations.CarStateDecidesFloorsAndLanterns : Prop :=
  ∀ (c : CarIx) (p2 p1 p0 v1 v0 : Byte) (ent : Entrance) (mode : Mode) (dir : Dir) (next : Byte) (s : State),
    s.inReset = false → (s.carEntry c).enabled = true →
    let r := carReport c p2 p1 p0 v1 v0 ent mode dir next
    let u := s.setCar c (s.reported r)
    let evs := (trackReport r s).2
    (∃ t, exec (.carState (carStatePayload c p2 p1 p0 v1 v0 ent mode dir next)) s = .next t
      ∧ ∀ k : Deck, (k = .upper → s.doubleDeck c = true) →
          (((t.car c).deck k).floor, ((t.car c).deck k).atFloor) =
            match ((s.car c).deck k).floor with
            | none => u.snap c k
            | some d =>
              if (s.car c).snapPending = true ∨ (u.moving c = false ∧ (ent = .opening ∨ ent = .open))
                  ∨ s.candidate c d = false then u.snap c k
              else u.track c k d)
    ∧ ∃ t, exec (.carState (carStatePayload c p2 p1 p0 v1 v0 ent mode dir next)) s = .next t
      ∧ (∀ (p : PanelIx) (k0 : Lantern), s.lantern p = some k0 → k0.car = c → (k0.state = .dark → k0.chime = .none) →
          let k := k0.afterEvents evs
          ∃ k', t.lantern p = some k' ∧ k'.floor = k.floor ∧ k'.car = c ∧ k'.deck = k.deck ∧ t.LanternRule evs k k'.state
            ∧ (k'.state = .dark → k' = if k.state = .dark then k else k.ended)
            ∧ (k'.state ≠ .dark → (k'.given = true ↔ k.given = true ∨ k.Chimes k'.state dir)
                ∧ k'.chime = if k.Chimes k'.state dir ∨ (k.chime ≠ .none ∧ dir ≠ .none) then dir else k.chime))
      ∧ (∀ p : PanelIx, s.lantern p = none → t.lantern p = none)
      ∧ ∀ i : TimerIx, ((s.timer i).armed = true → (s.timer i).count = 0) →
          t.timer i =
            if ∃ (p : PanelIx), ∃ k0 ∈ s.lantern p, ∃ k' ∈ t.lantern p,
                k0.car = c ∧ (k0.afterEvents evs).state ≠ .arrived ∧ k'.state = .arrived
            then s.retriggered .lanternArrival i else s.timer i

/-- R13 (and R12): a snap takes the nearest candidate, the lower floor index on a tie. -/
def Obligations.SnapTakesTheNearestCandidate : Prop :=
  ∀ (s : State) (c : CarIx) (k : Deck),
    ((∀ f, s.candidate c f = false) → s.snap c k = (none, false))
    ∧ ((∃ f, s.candidate c f = true) → ∃ f, s.candidate c f = true
        ∧ s.snap c k = (some f, decide (apart (s.deckPosition c k) (s.level f) ≤ s.effWindow c))
        ∧ ∀ g, s.candidate c g = true →
            apart (s.deckPosition c k) (s.level f) < apart (s.deckPosition c k) (s.level g)
            ∨ (apart (s.deckPosition c k) (s.level f) = apart (s.deckPosition c k) (s.level g) ∧ f ≤ g))

/-- R14, R15: where a tracking decision heads for. -/
def Obligations.TrackingHeadsForTheNearest : Prop :=
  ∀ (s : State) (c : CarIx) (k : Deck) (d : FloorIx),
    let V := (s.car c).velocity
    let Pd := s.deckPosition c k
    let lead := min (V.natAbs * s.effLead c / 1000) (s.effCap c)
    let Pe := if V.natAbs < s.profile.vmin ∨ V = 0 then Pd
      else if 0 < V then min (Pd + lead) 1048575 else Pd - lead
    ((∀ f, s.candidate c f = false) → s.track c k d = (none, false))
    ∧ ((∃ f, s.candidate c f = true) → ∃ C, nearest (s.candidate c) s.level (s.expected c k) (decide (0 < V)) = some C
        ∧ s.expected c k = Pe ∧ s.candidate c C = true
        ∧ ∀ g, s.candidate c g = true →
            apart Pe (s.level C) < apart Pe (s.level g)
            ∨ (apart Pe (s.level C) = apart Pe (s.level g) ∧ if 0 < V then g ≤ C else C ≤ g))

/-- R16, R17, R18: a moving deck does not move against its velocity; otherwise it steps toward the nearest candidate, each
step past its midpoint by the hysteresis. -/
def Obligations.TrackingStepsByHysteresis : Prop :=
  ∀ (s : State) (c : CarIx) (k : Deck) (d C : FloorIx),
    let V := (s.car c).velocity
    nearest (s.candidate c) s.level (s.expected c k) (decide (0 < V)) = some C →
    (s.moving c = true → (C < d ∧ 0 < V) ∨ (d < C ∧ V < 0) → s.track c k d = (some d, false))
    ∧ (¬(s.moving c = true ∧ ((C < d ∧ 0 < V) ∨ (d < C ∧ V < 0))) → ∃ d',
        s.track c k d =
          (some d', decide (s.moving c = false ∧ apart (s.deckPosition c k) (s.level d') ≤ s.effWindow c))
        ∧ (d ≤ C → SteppedUp (s.candidate c) s.level (s.expected c k) (s.effHysteresis c) C d d')
        ∧ (C ≤ d → SteppedDown (s.candidate c) s.level (s.expected c k) (s.effHysteresis c) C d d'))

/-- R57, R58: an entrance-closed event removes the records of its car, of a matching deck, that go its way. -/
def Obligations.EntranceClosedBoardsPrompts : Prop :=
  ∀ (e : ClosedEvent) (s : State),
    let deckOk (r : Prompt) : Bool := match e.deck, r.deck with
      | .single, _ => true
      | .lower, .upper => false
      | .lower, _ => true
      | .upper, .lower => false
      | .upper, _ => true
    let wayOk (r : Prompt) : Bool := match e.dir with
      | .up => decide (e.floor < r.destination)
      | .down => decide (r.destination < e.floor)
      | .none => true
    let boards (r : Prompt) : Bool := decide (r.car = e.car) && deckOk r && wayOk r
    let here (k : KioskIx) : Bool := (s.kioskEntry k).enabled && decide ((s.kioskEntry k).floor = e.floor)
    (∀ k, (boarding e s).queue k = if here k = true then (s.queue k).filter (fun r => !boards r) else s.queue k)
    ∧ Counted s (boarding e s) (times .promptsBoarded
        ((allKiosks.filter here).map fun k => (s.queue k).countP boards).sum)

/-- R25, R26, R27, R57, R58: the entrance-open floors and the recorded direction of a car's decks after a frame, and the prompts
that its entrance-closed events board: a deck that becomes OPEN at-floor holds its floor, with an event for another floor it held;
a held floor is shut by CLOSED after another state, or by driving off. A direction the frame reports is recorded before the closing
event, and the upper deck's event for another floor carries the direction as the lower deck has left it (log 10). -/
def Obligations.EntrancesOpenCloseAndBoard : Prop :=
  ∀ (c : CarIx) (p2 p1 p0 v1 v0 : Byte) (ent : Entrance) (mode : Mode) (dir : Dir) (next : Byte) (s : State),
    s.inReset = false → (s.carEntry c).enabled = true → (s.doubleDeck c = false → (s.car c).upper.openFloor = none) →
    ∃ t, exec (.carState (carStatePayload c p2 p1 p0 v1 v0 ent mode dir next)) s = .next t ∧
      let before := (s.car c).entrance
      let old := (s.car c).recDir
      let floor (k : Deck) : Option FloorIx := ((t.car c).deck k).floor
      let held (k : Deck) : Option FloorIx := ((s.car c).deck k).openFloor
      let opens (k : Deck) : Bool :=
        decide (ent = .open ∧ before ≠ .open ∧ ((t.car c).deck k).atFloor = true ∧ floor k ≠ none)
      let holds (k : Deck) : Option FloorIx := if opens k then floor k else held k
      let newly (k : Deck) : Bool := opens k && decide (held k ≠ floor k)
      let shuts : Bool := decide ((ent = .closed ∧ before ≠ .closed) ∨ (s.movesAt (t.car c).velocity ∧ ent ≠ .closed))
      let wayThen (k : Deck) : Dir :=
        if k = .upper ∧ (newly .lower = true ∨ (holds .lower ≠ none ∧ dir ≠ .none)) then dir else old
      let wayShut (k : Deck) : Dir :=
        if dir ≠ .none ∨ newly k = true ∨ (k = .upper ∧ newly .lower = true) then dir else old
      let boards (f : FloorIx) (x : Prompt) : Bool := decide (x.car = c) && (s.decksOf c).any fun k =>
        (s.eventDeck c k).boards x.deck
          && ((newly k && decide (held k = some f) && wayTo (wayThen k) f x.destination)
            || (shuts && decide (holds k = some f) && wayTo (wayShut k) f x.destination))
      let left (j : KioskIx) : List Prompt :=
        (s.queue j).filter fun x => !((s.kioskEntry j).enabled && boards (s.kioskEntry j).floor x)
      (∀ k ∈ s.decksOf c, ((t.car c).deck k).openFloor = if shuts then none else holds k)
      ∧ ((∀ k ∈ s.decksOf c, holds k = none) → (t.car c).recDir = old)
      ∧ ((∃ k ∈ s.decksOf c, holds k ≠ none) → (t.car c).recDir =
          if shuts then .none else if dir ≠ .none ∨ (s.decksOf c).any newly = true then dir else old)
      ∧ (∀ j, (t.queue j).map Prompt.ticket = (left j).map Prompt.ticket)
      ∧ (mode = (s.car c).mode → ∀ j, t.queue j = left j)

/-- R23, R60, R61: a frame that takes the car out of NORMAL service withdraws its prompts, one that returns it restores them. -/
def Obligations.ServiceModeWithdrawsAndRestores : Prop :=
  ∀ (c : CarIx) (p2 p1 p0 v1 v0 : Byte) (ent : Entrance) (mode : Mode) (dir : Dir) (next : Byte) (s : State),
    s.inReset = false → (s.carEntry c).enabled = true → ent ≠ .open → (s.car c).lower.openFloor = none →
    (s.car c).upper.openFloor = none →
    ∃ t, exec (.carState (carStatePayload c p2 p1 p0 v1 v0 ent mode dir next)) s = .next t
      ∧ ∀ k, t.queue k = (s.queue k).map fun r =>
          if r.car = c ∧ (s.car c).mode = .normal ∧ mode ≠ .normal then
            { r with withdrawn := true, hold := min r.hold (s.effWithdrawnHold k) }
          else if r.car = c ∧ (s.car c).mode ≠ .normal ∧ mode = .normal then { r with withdrawn := false }
          else r

/-! ### Prompts, notices, timers (chapters 3 to 5) -/

/-- R7, R50, R51, R55, R72, R97: the operational frames that are dropped, and what each counts. -/
def Obligations.BadOperationalFramesAreDropped : Prop :=
  (∀ (d : List Byte) (s : State), s.inReset = false → d.length ≤ 248 →
      (d.length ≠ 10 ∨ 24 ≤ (d.getD 0 0).toNat ∨ (∃ c : CarIx, (d.getD 0 0).toNat = c.val ∧ (s.carEntry c).enabled = false)
        ∨ 4 ≤ (d.getD 6 0).toNat ∨ 5 ≤ (d.getD 7 0).toNat ∨ 3 ≤ (d.getD 8 0).toNat) →
      ∃ t, exec (.carState d) s = .next t ∧ Dropped s t .malformed)
    ∧ (∀ (d : List Byte) (s : State), s.inReset = false → d.length ≤ 248 →
        (d.length ≠ 7 ∨ 32 ≤ (d.getD 0 0).toNat
          ∨ (∃ k : KioskIx, (d.getD 0 0).toNat = k.val ∧ (s.kioskEntry k).enabled = false)
          ∨ 160 ≤ (d.getD 3 0).toNat ∨ 24 ≤ (d.getD 4 0).toNat ∨ 3 ≤ (d.getD 5 0).toNat ∨ 4 ≤ (d.getD 6 0).toNat) →
        ∃ t, exec (.assign d) s = .next t ∧ Dropped s t .malformed)
    ∧ (∀ (k : KioskIx) (t1 t0 : Byte) (dest : FloorIx) (car : CarIx) (deck : PromptDeck) (cls : PromptClass) (s : State),
        s.inReset = false → (s.kioskEntry k).enabled = true → s.zoneClosed (s.kioskEntry k).zone = true →
        ∃ t, exec (.assign (assignPayload k t1 t0 dest car deck cls)) s = .next t ∧ Dropped s t .assignRefused)
    ∧ (∀ (d : List Byte) (s : State), s.inReset = false → d.length ≤ 248 → (d.length ≠ 3 ∨ 32 ≤ (d.getD 0 0).toNat) →
        ∃ t, exec (.cancel d) s = .next t ∧ Dropped s t .malformed)
    ∧ (∀ (n : Byte) (s : State), s.inReset = false →
        (16 ≤ n.toNat ∨ ∃ i : NoticeIx, n.toNat = i.val ∧ (s.noticeEntry i).enabled = false) →
        (∃ t, exec (.noticeOn n) s = .next t ∧ Dropped s t .malformed)
        ∧ ∃ t, exec (.noticeOff n) s = .next t ∧ Dropped s t .malformed)
    ∧ ∀ (d : List Byte) (s : State), s.inReset = false → d.length ≤ 248 → d.length ≠ 1 →
        ∃ t, exec (.cadenceSync d) s = .next t ∧ Dropped s t .malformed

/-- R52, R49: an accepted ASSIGN of a new ticket. R53, R95: an accepted ASSIGN of a ticket already in the queue. -/
def Obligations.AssignPlacesOrMovesAPrompt : Prop :=
  (∀ (k : KioskIx) (t1 t0 : Byte) (dest : FloorIx) (car : CarIx) (deck : PromptDeck) (cls : PromptClass) (s : State),
     s.inReset = false → (s.kioskEntry k).enabled = true → s.zoneClosed (s.kioskEntry k).zone = false →
     (s.queue k).length ≤ 8 → (∀ r ∈ s.queue k, r.ticket ≠ (t1 ++ t0 : BitVec 16)) →
     ∃ t, exec (.assign (assignPayload k t1 t0 dest car deck cls)) s = .next t
       ∧ t.queue k = s.promptFor k (t1 ++ t0) dest car deck cls 0 :: (s.queue k).take 7
       ∧ (∀ j, j ≠ k → t.queue j = s.queue j) ∧ (∀ i, t.timer i = s.timer i)
       ∧ ((s.queue k).length = 8 → t.flag .promptEvicted)
       ∧ Counted s t (frameCounts s (times .promptsEvicted (if (s.queue k).length = 8 then 1 else 0)))
       ∧ OnlyIn ([.queues] ++ frameParts) s t)
    ∧ ∀ (k : KioskIx) (t1 t0 : Byte) (dest : FloorIx) (car : CarIx) (deck : PromptDeck) (cls : PromptClass) (old : Prompt)
      (s : State),
      s.inReset = false → (s.kioskEntry k).enabled = true → s.zoneClosed (s.kioskEntry k).zone = false →
      ((s.queue k).map Prompt.ticket).Nodup → old ∈ s.queue k → old.ticket = (t1 ++ t0 : BitVec 16) →
      let moved := old.car ≠ car ∨ old.deck ≠ deck
      ∃ t, exec (.assign (assignPayload k t1 t0 dest car deck cls)) s = .next t
        ∧ t.queue k = s.promptFor k (t1 ++ t0) dest car deck cls (if moved then s.profile.markerTime else old.marker)
            :: (s.queue k).filter (fun r => decide (r ≠ old))
        ∧ (∀ j, j ≠ k → t.queue j = s.queue j)
        ∧ (∀ i, t.timer i = if moved then s.retriggered .reassignment i else s.timer i)
        ∧ Counted s t (frameCounts s (times .goodFrames 0)) ∧ OnlyIn ([.queues, .timers] ++ frameParts) s t

/-- R55: an accepted CANCEL. -/
def Obligations.CancelRemovesThePrompt : Prop :=
  ∀ (k : KioskIx) (t1 t0 : Byte) (s : State), s.inReset = false →
    let found := ∃ r ∈ s.queue k, r.ticket = (t1 ++ t0 : BitVec 16)
    ∃ t, exec (.cancel [byteOf k.val, t1, t0]) s = .next t
      ∧ t.queue k = (s.queue k).filter (fun r => decide (r.ticket ≠ (t1 ++ t0 : BitVec 16)))
      ∧ (∀ j, j ≠ k → t.queue j = s.queue j)
      ∧ (found → Counted s t (frameCounts s (times .unmatchedCancels 0)))
      ∧ (¬found → Counted s t (frameCounts s (times .unmatchedCancels 1)))
      ∧ OnlyIn ([.queues] ++ frameParts) s t

/-- R73, R63, R95: a NOTICE "on" for an enabled notice that is not active; for one that is, nothing. R74: a NOTICE "off" for an
enabled notice. -/
def Obligations.NoticesJoinAndLeave : Prop :=
  (∀ (n : NoticeIx) (s : State), s.inReset = false → (s.noticeEntry n).enabled = true →
     let e := s.noticeEntry n
     let newly (k : KioskIx) : Bool :=
       (s.kioskEntry k).enabled && (e.cls == .evacuation || e.cls == .recall) && e.zones.getLsbD (s.kioskEntry k).zone.val
         && !s.zoneClosed (s.kioskEntry k).zone
     ∃ t, exec (.noticeOn (byteOf n.val)) s = .next t ∧ t.isActive n = true ∧ (∀ m, m ≠ n → t.isActive m = s.isActive m)
       ∧ (s.isActive n = true → OnlyIn frameParts s t)
       ∧ (s.isActive n = false →
           (∀ k, t.queue k = if newly k = true then [] else s.queue k)
           ∧ (∀ i, t.timer i = s.retriggered .noticeActivation i)
           ∧ Counted s t (frameCounts s (times .promptsFlushed
               ((allKiosks.filter newly).map fun k => (s.queue k).length).sum))))
    ∧ ∀ (n : NoticeIx) (s : State), s.inReset = false → (s.noticeEntry n).enabled = true →
      ∃ t, exec (.noticeOff (byteOf n.val)) s = .next t ∧ t.isActive n = false
        ∧ (∀ m, m ≠ n → t.isActive m = s.isActive m)
        ∧ OnlyIn ((if s.isActive n = true then [.notices] else []) ++ frameParts) s t

/-- R77, R75, R76: where contents are as composed (the invariant ContentsAndLanternsStayCurrent keeps), an enabled panel that
an active EVACUATION or RECALL notice covers shows the first of them, urgent, whatever its route and the loss state. -/
def Obligations.GraveNoticeIsShown : Prop :=
  ∀ (s : State) (p : PanelIx), s.tables.Ok → s.ContentsFresh → (s.panelEntry p).enabled = true →
    (∃ n, s.covers n p = true ∧ ((s.noticeEntry n).cls = .evacuation ∨ (s.noticeEntry n).cls = .recall)) →
    ∃ n, s.covers n p = true ∧ ((s.noticeEntry n).cls = .evacuation ∨ (s.noticeEntry n).cls = .recall)
      ∧ (∀ m, s.covers m p = true →
          (s.noticeEntry n).cls.code < (s.noticeEntry m).cls.code
          ∨ ((s.noticeEntry n).cls = (s.noticeEntry m).cls ∧ n ≤ m))
      ∧ (s.content p).content.kind = .notice ∧ (s.content p).content.urgent = true
      ∧ (s.content p).content.chime = .none
      ∧ (s.content p).content.lines.head? =
          some { text := fit (s.panelEntry p).columns (s.text (s.noticeEntry n).text), arrow := .none
                 blink := (s.noticeEntry n).cadence }

/-- R97: an accepted CADENCE SYNC. -/
def Obligations.CadenceSyncRestartsNamedTimers : Prop :=
  ∀ (mask : Byte) (s : State), s.inReset = false → ∃ t, exec (.cadenceSync [mask]) s = .next t
    ∧ (∀ i : TimerIx, t.timer i =
        if mask.getLsbD i.val = true then { s.timer i with count := 0, phase := .a, cycle := 0 } else s.timer i)
    ∧ Counted s t (frameCounts s (times .malformed 0)) ∧ OnlyIn ([.timers] ++ frameParts) s t

/-! ### Management requests (chapter 9) -/

/-- R171, R176, R178, R180, R170, R177: a request to this node taken while a REPLY is pending, which waits only behind a frame on U
(the invariant LinesAndSlotsStayConsistent keeps), and an asking request to all nodes, are not carried out;
each counts, and neither closes the open write; but the entries of a TABLE WRITE or TABLE CONTINUE that passed stay stored (in dispatch loss too: log 15), a TABLE WRITE of a table id of 11 or more alone closes the open write (R173, R176;
log 30), and a TABLE CONTINUE with no write open has its entries checked all the same (R176; the free value of log 16 that this
takes is counted). R171, R176: a payload that is not of its request's length is answered BAD LENGTH; it closes the open write and
does nothing else. -/
def Obligations.RequestsRefused : Prop :=
  ((∀ (c : Dest → Instr) (s : State), s.inReset = false → s.mgmt.address ≤ 62 → s.up.reply.isSome = true →
       s.up.tx.isSome = true →
       (∃ tag d, d.length ≤ 248 ∧
         (c = (.bankSelect · tag d) ∨ c = (.alertMask · tag d) ∨ c = (.alertClear · tag d) ∨ c = (.exerciseStart · tag d)
           ∨ c = (.exerciseStop · tag d) ∨ c = (.nodeReset · tag d) ∨ c = (.addressSet · tag d) ∨ c = (.tableRead · tag d)
           ∨ c = (.stateReadNode · tag) ∨ c = (.counterReadClear · tag) ∨ c = (.counterReadKeep · tag)
           ∨ (∃ x y, c = (.stateReadPanels · tag x y)) ∨ (∃ x, c = (.stateReadCar · tag x))
           ∨ (∃ x, c = (.stateReadKiosk · tag x)) ∨ c = (.stateReadNotices · tag) ∨ c = (.stateReadExercise · tag)
           ∨ ((d = [] ∨ ∃ id : Byte, d = [id] ∧ id.toNat < 11) ∧ c = (.tableWrite · tag d)))) →
       ∃ t, exec (c .own) s = .next t ∧ Dropped s t .returnDrops)
     ∧ (∀ (tag id : Byte) (s : State), s.inReset = false → s.mgmt.address ≤ 62 → s.up.reply.isSome = true →
         s.up.tx.isSome = true → 11 ≤ id.toNat →
         ∃ t, exec (.tableWrite .own tag [id]) s = .next t ∧ t.mgmt.openWrite = none ∧ OnlyIn (.openWrite :: frameParts) s t
           ∧ Counted s t (frameCounts s (times .returnDrops 1)))
     ∧ (∀ (tag : Byte) (d : List Byte) (s : State), s.inReset = false → s.mgmt.address ≤ 62 → s.up.reply.isSome = true →
         s.up.tx.isSome = true → d.length ≤ 248 → s.mgmt.openWrite = none →
         ∃ t, exec (.tableContinue .own tag d) s = .next t ∧ OnlyIn (.draws :: frameParts) s t
           ∧ Counted s t (frameCounts s (times .returnDrops 1)))
     ∧ (∀ (tag : Byte) (T : Fin 11) (start : Nat) (es : List (List Byte)) (s : State), s.inReset = false →
         s.mgmt.address ≤ 62 → s.up.reply.isSome = true → s.up.tx.isSome = true → start < entryCount T →
         (∀ e ∈ es, e.length = entrySize T) →
         let stored (t : State) : Prop := t.tables = (Tables.storeAll T start es s.tables).1
           ∧ t.mgmt.openWrite = some { table := T, pointer := (start + es.length) % entryCount T }
           ∧ t.mgmt.counter .returnDrops = saturated (s.mgmt.counter .returnDrops) 1
           ∧ t.up.reply = s.up.reply ∧ t.up.tx = s.up.tx
         (2 + (entriesOnLine es).length ≤ 248 →
           ∃ t, exec (.tableWrite .own tag ([byteOf T.val, byteOf start] ++ entriesOnLine es)) s = .next t ∧ stored t)
         ∧ ((entriesOnLine es).length ≤ 248 → s.mgmt.openWrite = some { table := T, pointer := start } →
           ∃ t, exec (.tableContinue .own tag (entriesOnLine es)) s = .next t ∧ stored t))
     ∧ ∀ (tag x y : Byte) (d : List Byte) (s : State), s.inReset = false → d.length ≤ 248 →
         ∀ c ∈ [Instr.tableRead .all tag d, .addressSet .all tag d, .stateReadNode .all tag, .stateReadPanels .all tag x y
             , .stateReadCar .all tag x, .stateReadKiosk .all tag x, .stateReadNotices .all tag, .stateReadExercise .all tag
             , .counterReadKeep .all tag, .counterReadClear .all tag],
           ∃ t, exec c s = .next t ∧ Dropped s t .badTargets)
    ∧ ∀ (tag : Byte) (d : List Byte) (s : State), s.Takes .own → d.length ≤ 248 →
      ∀ q ∈ [(Instr.tableRead .own tag d, kindTableRead, 3), (.bankSelect .own tag d, kindBankSelect, 1)
          , (.alertMask .own tag d, kindAlertMask, 2), (.alertClear .own tag d, kindAlertClear, 2)
          , (.exerciseStart .own tag d, kindExerciseStart, 4), (.exerciseStop .own tag d, kindExerciseStop, 0)
          , (.nodeReset .own tag d, kindNodeReset, 0), (.addressSet .own tag d, kindAddressSet, 1)],
        d.length ≠ q.2.2 → ∃ t, exec q.1 s = .next t ∧ Told .own s t tag q.2.1 .badLength []
          ∧ t.mgmt.openWrite = none ∧ OnlyIn (.openWrite :: frameParts) s t

/-- R170: ADDRESS SET to this node. -/
def Obligations.AddressSetTakesTheAddress : Prop :=
  ∀ (tag a : Byte) (s : State), s.Takes .own → ∃ t, exec (.addressSet .own tag [a]) s = .next t
    ∧ (a.toNat ≤ 62 → t.mgmt.address = a.toNat ∧ Told .own s t tag kindAddressSet .accepted [])
    ∧ (63 ≤ a.toNat → t.mgmt.address = s.mgmt.address ∧ Told .own s t tag kindAddressSet .badValue [])
    ∧ t.mgmt.openWrite = none ∧ OnlyIn ([.openWrite, .address] ++ frameParts) s t

/-- R179, R107, R108: BANK SELECT; each link at a boundary adopts at once, every other keeps its bank. -/
def Obligations.BankSelectIsAdoptedAtBoundaries : Prop :=
  ∀ (dest : Dest) (tag b : Byte) (s : State), s.Takes dest → ∃ t, exec (.bankSelect dest tag [b]) s = .next t
    ∧ (∀ bank : Bank, b.toNat = bank.code → t.mgmt.selected = bank
        ∧ (∀ l : LinkIx, (t.link l).bank =
            if (s.link l).sequence = none ∧ s.exerciseInFlight l = false then bank else (s.link l).bank)
        ∧ Told dest s t tag kindBankSelect .accepted [])
    ∧ (2 ≤ b.toNat → t.mgmt.selected = s.mgmt.selected ∧ (∀ l : LinkIx, (t.link l).bank = (s.link l).bank)
        ∧ Told dest s t tag kindBankSelect .badValue [])
    ∧ OnlyIn ([.openWrite, .selected] ++ frameParts) s t

/-- R177: TABLE READ to this node. -/
def Obligations.TableReadReturnsEntries : Prop :=
  ∀ (tag table start count : Byte) (s : State), s.Takes .own → ∃ t,
    exec (.tableRead .own tag [table, start, count]) s = .next t
    ∧ (11 ≤ table.toNat → Told .own s t tag kindTableRead .badTable [])
    ∧ (∀ T : Fin 11, table.toNat = T.val →
        (entryCount T ≤ start.toNat → Told .own s t tag kindTableRead .badRange [])
        ∧ (start.toNat < entryCount T → count.toNat = 0 → Told .own s t tag kindTableRead .badValue [])
        ∧ (start.toNat < entryCount T → 0 < count.toNat →
            let n := min count.toNat (min (entryCount T - start.toNat) (240 / entrySize T))
            Told .own s t tag kindTableRead .accepted
              ([table, start, byteOf n] ++ (List.range n).flatMap fun i => s.tables.entryBytes T (start.toNat + i))))
    ∧ OnlyIn (.openWrite :: frameParts) s t

/-- R178, R189, R68, R85, R158: the reads of NODE, CAR, KIOSK, NOTICES and EXERCISE report the state the command leaves (its
own frame counted and its open write closed: the REPLY is built after the request's effect, log 14), and refuse an index out of
range. -/
def Obligations.StateReadsReport : Prop :=
  ∀ (tag x : Byte) (s : State), s.Takes .own →
    (∃ t, exec (.stateReadNode .own tag) s = .next t ∧ Told .own s t tag kindStateRead .accepted (0 :: nodeData t)
      ∧ OnlyIn (.openWrite :: frameParts) s t)
    ∧ (∃ t, exec (.stateReadCar .own tag x) s = .next t
        ∧ (∀ c : CarIx, x.toNat = c.val → Told .own s t tag kindStateRead .accepted (2 :: carData s c))
        ∧ (24 ≤ x.toNat → Told .own s t tag kindStateRead .badRange []) ∧ OnlyIn (.openWrite :: frameParts) s t)
    ∧ (∃ t, exec (.stateReadKiosk .own tag x) s = .next t
        ∧ (∀ k : KioskIx, x.toNat = k.val → Told .own s t tag kindStateRead .accepted (3 :: kioskData s k))
        ∧ (32 ≤ x.toNat → Told .own s t tag kindStateRead .badRange []) ∧ OnlyIn (.openWrite :: frameParts) s t)
    ∧ (∃ t, exec (.stateReadNotices .own tag) s = .next t
        ∧ Told .own s t tag kindStateRead .accepted (4 :: noticesData s) ∧ OnlyIn (.openWrite :: frameParts) s t)
    ∧ ∃ t, exec (.stateReadExercise .own tag) s = .next t
        ∧ Told .own s t tag kindStateRead .accepted (5 :: exerciseData t) ∧ OnlyIn (.openWrite :: frameParts) s t

/-- R147, R178, R125, R189: a PANELS read reports the health and the links as they stood (with the PHASE frames that became pending
where this frame ended dispatch loss) and every other part as the command leaves it, and clears the delta flags of the panels it
reported. -/
def Obligations.PanelsReadClearsDeltas : Prop :=
  ∀ (tag first count : Byte) (s : State), s.Takes .own → ∃ t, exec (.stateReadPanels .own tag first count) s = .next t
    ∧ (120 ≤ first.toNat → Told .own s t tag kindStateRead .badRange [] ∧ ∀ p, t.healthOf p = s.healthOf p)
    ∧ (first.toNat < 120 → count.toNat = 0 ∨ 15 < count.toNat →
        Told .own s t tag kindStateRead .badValue [] ∧ ∀ p, t.healthOf p = s.healthOf p)
    ∧ (first.toNat < 120 → 0 < count.toNat → count.toNat ≤ 15 →
        (∃ u : State, OnlyIn [.health, .links, .returnPath] u t ∧ u.health = s.health
          ∧ (s.loss.asserted = false → u.links = s.links)
          ∧ (∀ l : LinkIx, u.link l = { s.link l with phasePending := (u.link l).phasePending }
              ∧ ((s.link l).phasePending = true → (u.link l).phasePending = true))
          ∧ Told .own s t tag kindStateRead .accepted (1 :: panelsData u first.toNat count.toNat))
        ∧ ∀ p : PanelIx, t.healthOf p =
            if first.toNat ≤ p.val ∧ p.val < first.toNat + count.toNat then { s.healthOf p with delta := false }
            else s.healthOf p)
    ∧ OnlyIn ([.openWrite, .health] ++ frameParts) s t

/-- R180: a COUNTER READ reports the sixteen counters as they stand, its own frame counted, and clears them where asked. -/
def Obligations.CounterReadsReportAndClear : Prop :=
  ∀ (tag : Byte) (s : State), s.Takes .own →
    let now (k : CounterId) : Nat := saturated (s.mgmt.counter k) (frameCounts s (times k 0) k)
    let data : List Byte :=
      [CounterId.goodFrames, .crcFailures, .brokenFrames, .unknownKinds, .badTargets, .malformed, .clampedFields
      , .inputClamps, .assignRefused, .unmatchedCancels, .promptsEvicted, .promptsExpired, .promptsBoarded
      , .promptsFlushed, .returnDrops, .panelMisses].flatMap fun k => bytes2 (now k)
    (∃ t, exec (.counterReadKeep .own tag) s = .next t ∧ Told .own s t tag kindCounterRead .accepted data
      ∧ (∀ k, t.mgmt.counter k = now k) ∧ OnlyIn (.openWrite :: frameParts) s t)
    ∧ ∃ t, exec (.counterReadClear .own tag) s = .next t ∧ Told .own s t tag kindCounterRead .accepted data
        ∧ (∀ k, t.mgmt.counter k = 0) ∧ OnlyIn (.openWrite :: frameParts) s t

/-- R181, R182: ALERT MASK replaces the mask, ALERT CLEAR clears the named flags; a flag that is disabled or cleared leaves the
newly raised set. -/
def Obligations.AlertMaskAndClear : Prop :=
  ∀ (dest : Dest) (tag hi lo : Byte) (s : State), s.Takes dest →
    let named (a : AlertId) : Bool := (hi ++ lo : BitVec 16).getLsbD a.bit
    (∃ t, exec (.alertMask dest tag [hi, lo]) s = .next t ∧ (∀ a : AlertId, t.mgmt.mask.getLsbD a.bit = named a)
      ∧ (∀ a, s.flag a → t.flag a) ∧ (∀ a : AlertId, named a = false → t.mgmt.newly.getLsbD a.bit = false)
      ∧ Told dest s t tag kindAlertMask .accepted [] ∧ OnlyIn ([.openWrite, .mask] ++ frameParts) s t)
    ∧ ∃ t, exec (.alertClear dest tag [hi, lo]) s = .next t ∧ (∀ a, named a = true → ¬t.flag a)
      ∧ (∀ a, named a = false → s.flag a → t.flag a)
      ∧ (∀ a : AlertId, named a = true → t.mgmt.newly.getLsbD a.bit = false)
      ∧ Told dest s t tag kindAlertClear .accepted [] ∧ OnlyIn (.openWrite :: frameParts) s t

/-- R150, R151, R152: an EXERCISE START that is accepted, on a link with no adoption pending and with dispatch loss clear: the
run waits for the boundary, ends at once for an urgent refresh, or begins with the pattern's first 16 bytes (behind a PHASE frame,
or an ABORT: log 18). -/
def Obligations.ExerciseStartBeginsOrWaits : Prop :=
  ∀ (dest : Dest) (tag : Byte) (l : LinkIx) (a : Addr) (p : Pattern) (w : Window) (s : State), s.Takes dest →
    s.exercise.state ≠ .running → s.exercise.startPending = false → (s.panelEntry (panelAt l a)).enabled = true →
    s.adoptionPending l = false → s.loss.asserted = false →
    let started : Exercise := { Exercise.powerOn with link := l, panel := a, pattern := p, window := w, gen := p.seed }
    ∃ t, exec (.exerciseStart dest tag [byteOf l.val, byteOf a.val, byteOf p.code, byteOf w.code]) s = .next t
      ∧ ((s.link l).sequence ≠ none → t.exercise = { started with startPending := true })
      ∧ ((s.link l).sequence = none → s.urgentWork l = true →
          t.exercise = { started with state := .aborted, cause := .urgent } ∧ t.flag .exerciseEnded)
      ∧ ((s.link l).sequence = none → s.urgentWork l = false → (t.link l).activity = .exercise
          ∧ t.exercise =
              if (s.link l).phaseOnLine ≠ none ∨ (s.link l).aborting = true then { started with state := .running }
              else
                { started with
                  state := .running, framesSent := 1, gen := (Gen.take 16 p.seed).1, flight := some (Gen.take 16 p.seed).2 })
      ∧ Told dest s t tag kindExerciseStart .accepted [] ∧ OnlyIn (.openWrite :: frameParts) s t

/-- R150, R156, R155: a START that is refused changes nothing in the record; a STOP marks a running run, ends one whose start
is pending, and leaves any other. Dispatch loss is clear, so that no recomposition marks the record besides. -/
def Obligations.ExerciseRefusalsAndStop : Prop :=
  ∀ (dest : Dest) (tag : Byte) (s : State), s.Takes dest → s.loss.asserted = false →
    (∀ l a p w : Byte, ∃ t, exec (.exerciseStart dest tag [l, a, p, w]) s = .next t
      ∧ (s.exercise.state = .running ∨ s.exercise.startPending = true →
          t.exercise = s.exercise ∧ Told dest s t tag kindExerciseStart .busy [])
      ∧ (s.exercise.state ≠ .running → s.exercise.startPending = false →
          8 ≤ l.toNat ∨ 15 ≤ a.toNat ∨ 3 ≤ p.toNat ∨ 5 ≤ w.toNat
            ∨ (∃ (L : LinkIx) (A : Addr), l.toNat = L.val ∧ a.toNat = A.val ∧ (s.panelEntry (panelAt L A)).enabled = false) →
          t.exercise = s.exercise ∧ Told dest s t tag kindExerciseStart .badValue []))
    ∧ ∃ t, exec (.exerciseStop dest tag []) s = .next t
        ∧ t.exercise =
            (if s.exercise.startPending = true then
              { s.exercise with startPending := false, state := .aborted, cause := .stop, framesSent := 0 }
            else if s.exercise.state = .running ∧ s.exercise.endRequested = false then
              { s.exercise with endRequested := true, cause := .stop }
            else s.exercise)
        ∧ (s.exercise.startPending = true → t.flag .exerciseEnded)
        ∧ Told dest s t tag kindExerciseStop .accepted [] ∧ OnlyIn (.openWrite :: frameParts) s t

/-! ### Table writes (chapter 9) -/

/-- R173 to R176: the entries of a TABLE WRITE or TABLE CONTINUE that all pass are stored one after another, the pointer moving
on with them, in dispatch loss too (at the frame's END). What the owner of the table does at once with an entry stored: R4, R28,
R29 (every present car is re-decided by a snap, a disabled one returns to its reset values), R46, R82 with R63 (flushes, and the
active set), R93, R94 (a timer restarts where another field than its limits changes), R145 (link fault). That a deck offset written to 0 keeps
the recorded direction, where it discards the only entrance-open floor, is the model's choice (log 27). -/
def Obligations.TableWriteStoresItsEntries : Prop :=
  ∀ (dest : Dest) (tag : Byte) (T : Fin 11) (start : Nat) (es : List (List Byte)) (s : State), s.Takes dest →
    start < entryCount T → (∀ e ∈ es, e.length = entrySize T) →
    let after (t : State) : Prop :=
      t.tables = (Tables.storeAll T start es s.tables).1
      ∧ t.mgmt.openWrite = some { table := T, pointer := (start + es.length) % entryCount T }
      ∧ t.mgmt.counter .clampedFields =
          saturated (s.mgmt.counter .clampedFields) (Tables.storeAll T start es s.tables).2
    let data : List Byte := [byteOf es.length, byteOf T.val, byteOf ((start + es.length) % entryCount T)]
    (2 + (entriesOnLine es).length ≤ 248 →
      ∃ t, exec (.tableWrite dest tag ([byteOf T.val, byteOf start] ++ entriesOnLine es)) s = .next t ∧ after t
        ∧ Told dest s t tag kindTableWrite .accepted data)
    ∧ ((entriesOnLine es).length ≤ 248 → s.mgmt.openWrite = some { table := T, pointer := start } →
      ∃ t, exec (.tableContinue dest tag (entriesOnLine es)) s = .next t ∧ after t
        ∧ Told dest s t tag kindTableContinue .accepted data)
    ∧ ∀ e : List Byte, es = [e] →
      let u := { s with tables := (s.tables.store T start e).1 }
      ∃ t, exec (.tableWrite dest tag ([byteOf T.val, byteOf start] ++ entriesOnLine [e])) s = .next t
        ∧ (T = 1 ∨ T = 2 ∨ T = 3 → ∀ c : CarIx, t.car c =
            let r := s.car c
            let stored := T = 2 ∧ c.val = start
            if stored ∧ (s.carEntry c).enabled = true ∧ (u.carEntry c).enabled = false then CarRec.powerOn
            else if r.present = false then r
            else
              { r with
                lower := { r.lower with floor := (u.snap c .lower).1, atFloor := (u.snap c .lower).2 }
                upper :=
                  if u.doubleDeck c then { r.upper with floor := (u.snap c .upper).1, atFloor := (u.snap c .upper).2 }
                  else if stored ∧ s.doubleDeck c = true then DeckRec.powerOn
                  else r.upper })
        ∧ (T = 4 → ∀ k : KioskIx, t.queue k =
            if k.val = start ∧ (s.kioskEntry k).enabled = true ∧ ((u.kioskEntry k).enabled = false
                ∨ ((u.kioskEntry k).zone ≠ (s.kioskEntry k).zone ∧ s.zoneClosed (u.kioskEntry k).zone = true))
            then [] else s.queue k)
        ∧ (T = 5 → ∀ l : LinkIx,
            let now := (∃ p, panelLink p = l ∧ (u.panelEntry p).enabled = true)
              ∧ ∀ p, panelLink p = l → (u.panelEntry p).enabled = true → (s.healthOf p).faulted = true
            (t.link l).fault = (if l.val = start / 15 then decide now else (s.link l).fault)
            ∧ (l.val = start / 15 → now → (s.link l).fault = false → t.flag .linkFault))
        ∧ (T = 9 → ∀ n : NoticeIx, n.val = start →
            let x := u.noticeEntry n
            t.isActive n = (s.isActive n && x.enabled) ∧ (∀ m, m ≠ n → t.isActive m = s.isActive m)
            ∧ (∀ i, t.timer i = s.timer i)
            ∧ ∀ k : KioskIx, t.queue k =
                if s.isActive n = true ∧ x.enabled = true ∧ (x.cls = .evacuation ∨ x.cls = .recall)
                    ∧ (s.kioskEntry k).enabled = true ∧ x.zones.getLsbD (s.kioskEntry k).zone.val = true
                    ∧ s.zoneClosed (s.kioskEntry k).zone = false
                then [] else s.queue k)
        ∧ (T = 10 → ∀ i : TimerIx, t.timer i =
            let a := s.cadenceEntry i
            let b := u.cadenceEntry i
            if i.val = start ∧ (a.mode ≠ b.mode ∨ a.oneShot ≠ b.oneShot ∨ a.source ≠ b.source ∨ a.retrigger ≠ b.retrigger)
            then restarted b else s.timer i)

/-- R173, R174, R175: where a TABLE WRITE stops short: at an entry whose CRC-8 fails, at trailing bytes, at a table id or start
index out of range, before its start index; and R176: a TABLE CONTINUE with no write open, whose entries are checked but not stored.
The size they are checked by is no rule's: it is that of a table T, whichever the free value gives (log 16). R168, R174, R182: the
ALERT of a failing first entry, raised at once, begins on the free transmitter before the frame's END, and the REPLY waits behind it
and no longer reports it as pending (log 5). Which result wins where a payload meets two is the model's choice (log 17). -/
def Obligations.TableWriteStopsShort : Prop :=
  ∀ (dest : Dest) (tag : Byte) (s : State), s.Takes dest →
    (∀ (T : Fin 11) (start : Nat) (es : List (List Byte)) (bad : List Byte) (check : Byte) (rest : List Byte),
        start < entryCount T → (∀ e ∈ es, e.length = entrySize T) → bad.length = entrySize T → crc8 bad ≠ check →
        ([byteOf T.val, byteOf start] ++ entriesOnLine es ++ bad ++ [check] ++ rest).length ≤ 248 →
        ∃ t, exec (.tableWrite dest tag ([byteOf T.val, byteOf start] ++ entriesOnLine es ++ bad ++ [check] ++ rest)) s = .next t
          ∧ t.tables = (Tables.storeAll T start es s.tables).1
          ∧ t.mgmt.openWrite = some { table := T, pointer := (start + es.length) % entryCount T }
          ∧ t.flag .entryCheckFailed
          ∧ Told dest s t tag kindTableWrite .entryCheck
              [byteOf es.length, byteOf T.val, byteOf ((start + es.length) % entryCount T)])
    ∧ (∀ (T : Fin 11) (start : Nat) (es : List (List Byte)) (part : List Byte),
        start < entryCount T → (∀ e ∈ es, e.length = entrySize T) → 1 ≤ part.length → part.length ≤ entrySize T →
        ([byteOf T.val, byteOf start] ++ entriesOnLine es ++ part).length ≤ 248 →
        ∃ t, exec (.tableWrite dest tag ([byteOf T.val, byteOf start] ++ entriesOnLine es ++ part)) s = .next t
          ∧ t.tables = (Tables.storeAll T start es s.tables).1
          ∧ t.mgmt.openWrite = some { table := T, pointer := (start + es.length) % entryCount T }
          ∧ Told dest s t tag kindTableWrite .badLength
              [byteOf es.length, byteOf T.val, byteOf ((start + es.length) % entryCount T)])
    ∧ (∀ (id start : Byte) (rest : List Byte), rest.length ≤ 246 →
        (∃ t, exec (.tableWrite dest tag (id :: start :: rest)) s = .next t
          ∧ (11 ≤ id.toNat → t.tables = s.tables ∧ t.mgmt.openWrite = none
              ∧ Told dest s t tag kindTableWrite .badTable [0, 255, 255])
          ∧ (∀ T : Fin 11, id.toNat = T.val → entryCount T ≤ start.toNat → t.tables = s.tables ∧ t.mgmt.openWrite = none
              ∧ Told dest s t tag kindTableWrite .badRange [0, 255, 255])))
    ∧ (∀ d : List Byte, d.length < 2 → ∃ t, exec (.tableWrite dest tag d) s = .next t ∧ t.tables = s.tables
        ∧ t.mgmt.openWrite = none ∧ Told dest s t tag kindTableWrite .badLength [0, 255, 255])
    ∧ (∀ d : List Byte, d.length ≤ 248 → s.mgmt.openWrite = none → ∃ t, exec (.tableContinue dest tag d) s = .next t
        ∧ t.tables = s.tables ∧ t.mgmt.openWrite = none
        ∧ Told dest s t tag kindTableContinue .noContinuation [0, 255, 255])
    ∧ (∀ (T : Fin 11) (es : List (List Byte)) (bad : List Byte) (check : Byte) (rest : List Byte),
        s.mgmt.openWrite = none → Config.closedTable s.draws = T →
        (∀ e ∈ es, e.length = entrySize T) → bad.length = entrySize T → crc8 bad ≠ check →
        (entriesOnLine es ++ bad ++ [check] ++ rest).length ≤ 248 →
        ∃ t, exec (.tableContinue dest tag (entriesOnLine es ++ bad ++ [check] ++ rest)) s = .next t ∧ t.flag .entryCheckFailed)
    ∧ (∀ (T : Fin 11) (es : List (List Byte)) (part : List Byte), s.mgmt.openWrite = none → Config.closedTable s.draws = T →
        (∀ e ∈ es, e.length = entrySize T) → part.length ≤ entrySize T → (entriesOnLine es ++ part).length ≤ 248 →
        ∃ t, exec (.tableContinue dest tag (entriesOnLine es ++ part)) s = .next t
          ∧ (t.flag .entryCheckFailed ↔ s.flag .entryCheckFailed))
    ∧ ∀ (T : Fin 11) (start : Nat) (bad : List Byte) (check : Byte) (rest : List Byte),
        start < entryCount T → bad.length = entrySize T → crc8 bad ≠ check →
        ([byteOf T.val, byteOf start] ++ bad ++ [check] ++ rest).length ≤ 248 →
        s.up.tx = none → s.up.reply = none → s.up.order = [] → s.breaksNow = 0 →
        s.mgmt.mask.getLsbD AlertId.entryCheckFailed.bit = true → ¬s.flag .entryCheckFailed →
        let u := raise .entryCheckFailed s
        ∃ t, exec (.tableWrite dest tag ([byteOf T.val, byteOf start] ++ bad ++ [check] ++ rest)) s = .next t
          ∧ t.up.tx = some (.alert (alertFrame u))
          ∧ (dest = .own → ∃ f, t.up.reply = some f ∧ (s.loss.asserted = false → s.mgmt.counter .goodFrames ≠ 65534 →
              (f.payload.drop 2).take 2 = bytes2 u.mgmt.flags.toNat))

/-- R172: a store makes every field of its entry lie in range, from that write's bytes alone, and changes no other entry. -/
def Obligations.StoreKeepsTablesWhole : Prop :=
  ∀ (ts : Tables) (T : Fin 11) (i : Nat) (e : List Byte), ts.Ok → i < entryCount T →
    (ts.store T i e).1.Ok
    ∧ (∀ (U : Fin 11) (j : Nat), (U, j) ≠ (T, i) → (ts.store T i e).1.entryBytes U j = ts.entryBytes U j)
    ∧ ∀ ts' : Tables, (ts'.store T i e).1.entryBytes T i = (ts.store T i e).1.entryBytes T i

/-- R172, R177, R190 to R192: the bytes an entry reads back as, written again, store the same entry and change no field: the
layout of every table reads each bit back where it was written. -/
def Obligations.StoredEntriesReadBack : Prop :=
  ∀ (ts : Tables) (T : Fin 11) (i : Nat), ts.Ok → i < entryCount T →
    (ts.entryBytes T i).length = entrySize T ∧ ts.store T i (ts.entryBytes T i) = (ts, 0)

/-! ### The U and C ports (chapter 9) -/

/-- R163: the decision made when kind and target have arrived, and what goes out on C in place of a consumed frame. R164: IDLE goes
through the delay line as received, and absorbs its extra characters. `sent` and `line` are the model's record of C (log 7). -/
def Obligations.ForwardingFollowsTheTarget : Prop :=
  (∀ (kind target : Byte) (s : State), s.inReset = false →
    ∃ t, exec (.forwardingDecision kind target) s = .next t
      ∧ t.rx.inFrame = true ∧ t.rx.data = [kind, target]
      ∧ t.rx.target = some
          (if target.toNat ≤ 62 then (if target.toNat = s.mgmt.address then .own else .other)
          else if target = 63 then .all else if target = 64 then .operational else .bad)
      ∧ (s.rx.inFrame = false → s.cport.extra = 0 → s.cport.line.length ≤ 3 →
          t.cport.sent ++ t.cport.line = s.cport.sent ++ s.cport.line ++
            if target.toNat ≤ 62 ∧ target.toNat = s.mgmt.address then [LineChar.idle, .idle, .idle]
               else [.start, .data kind, .data target])
      ∧ Counted s t (times .brokenFrames s.breaksNow)
      ∧ OnlyIn ([.receiver, .cPort, .counters, .flags] ++ pickParts) s t)
    ∧ ∀ (idles : Nat) (s : State), s.inReset = false → s.DelayOk → s.rx.inFrame = false ∨ s.rx.target.isSome = true →
      ∃ t, exec (.entryCrc8Arrives (List.replicate idles .idle)) s = .next t
        ∧ (t.cport.sent ++ t.cport.line).filter (· ≠ .idle) = (s.cport.sent ++ s.cport.line).filter (· ≠ .idle)
        ∧ (3 + s.cport.extra < idles → t.cport.extra = 0)
        ∧ (s.cport.extra = 0 → t.cport.sent ++ t.cport.line = s.cport.sent ++ s.cport.line ++ List.replicate idles .idle)
        ∧ OnlyIn (.cPort :: pickParts) s t

/-- R162, R166, R163, R165, R171, R173: the END of a frame that fails its check, which leaves the open write where its table id and
start index have not both arrived; of a good frame that is not this node's to act on; and of one of a wrong kind to this node
(UNKNOWN REQUEST) or to all nodes. Outside a frame the command carries the frame from its START (log 4). That an unknown kind
to this node with a REPLY pending counts the unknown kind and the return drop both is log 14; that a table id of 11 or more leaves the open write
in a frame found bad before its start index is log 30. -/
def Obligations.FrameCompleteJudgesTheFrame : Prop :=
  ∀ (chars : List RxChar) (s : State), s.inReset = false →
    let data := dataOf chars
    let all := if s.rx.inFrame = true then s.rx.data ++ data else data
    all.length ≤ 253 →
    (all.length < 5 ∨ crcPasses all = false → ∃ t, exec (.frameComplete chars) s = .next t
      ∧ t.rx.inFrame = false ∧ t.loss = s.loss ∧ t.mgmt.counter .goodFrames = s.mgmt.counter .goodFrames
      ∧ t.mgmt.counter .crcFailures = saturated (s.mgmt.counter .crcFailures) 1
      ∧ (s.rx.inFrame = false → data.length < 5 → t.mgmt.openWrite = s.mgmt.openWrite))
    ∧ (∀ (kind target tag : Byte) (payload : List Byte), s.rx.inFrame = false →
        data = withCrc ([kind, target, tag] ++ payload) →
        (target.toNat ≤ 62 → target.toNat ≠ s.mgmt.address → ∃ t, exec (.frameComplete chars) s = .next t
          ∧ t.loss = { asserted := false, countdown := s.profile.lossTimeout }
          ∧ (s.loss.asserted = true → t.flag .dispatchRestored)
          ∧ Counted s t (times .goodFrames 1) ∧ OnlyIn frameParts s t)
        ∧ (65 ≤ target.toNat → ∃ t, exec (.frameComplete chars) s = .next t ∧ Dropped s t .badTargets)
        ∧ (target = 64 → (kind = 0 ∨ 6 ≤ kind.toNat) → ∃ t, exec (.frameComplete chars) s = .next t
            ∧ Dropped s t .unknownKinds)
        ∧ (kind.toNat < 0x20 ∨ 0x2B < kind.toNat →
            (target = 63 → ∃ t, exec (.frameComplete chars) s = .next t ∧ Dropped s t .unknownKinds)
            ∧ (target.toNat ≤ 62 → target.toNat = s.mgmt.address → ∃ t, exec (.frameComplete chars) s = .next t
                ∧ (s.up.reply = none → Told .own s t tag kind .unknownRequest [] ∧ Dropped s t .unknownKinds)
                ∧ (s.up.reply.isSome = true → OnlyIn frameParts s t
                    ∧ Counted s t fun k => times .goodFrames 1 k + times .unknownKinds 1 k + times .returnDrops 1 k))))

/-- R161, R160, R173: a frame broken by ABORT, START or its length, or by silence, is counted once and not taken; it leaves the open
write where its table id and start index have not both arrived, whatever the table id (log 30). The cause 'too long' breaks
whatever has arrived (log 4); `sent` is
the model's record of C (log 7). -/
def Obligations.BrokenFramesAreCounted : Prop :=
  (∀ (chars : List RxChar) (cause : BreakCause) (s : State), s.inReset = false →
      ∃ t, exec (.brokenFrame chars cause) s = .next t ∧ t.rx.data = []
        ∧ (cause ≠ .start → t.rx.inFrame = false) ∧ (cause = .start → t.rx.inFrame = true)
        ∧ t.mgmt.counter .brokenFrames = saturated (s.mgmt.counter .brokenFrames) 1
        ∧ t.mgmt.counter .goodFrames = s.mgmt.counter .goodFrames ∧ t.loss = s.loss
        ∧ (s.rx.inFrame = false → (dataOf chars).length < 5 → t.mgmt.openWrite = s.mgmt.openWrite))
    ∧ ∀ s : State, s.inReset = false → ∃ t, exec .frameSilence s = .next t ∧ t.rx.inFrame = false
        ∧ Counted s t (times .brokenFrames (if s.rx.inFrame = true then 1 else 0))
        ∧ (s.rx.inFrame = true → t.cport.line = [])
        ∧ (s.rx.inFrame = true → s.rx.target.isSome = true →
            t.cport.sent = s.cport.sent ++ s.cport.line ++ if s.rx.forwarding = true then [.abort] else [])
        ∧ OnlyIn ([.receiver, .cPort, .counters, .flags] ++ pickParts) s t

/-- R173, R174: what the arrival of a start index and of an entry's CRC-8 do at once, while the frame is still arriving; and R176:
the CRC-8 of an entry of a TABLE CONTINUE that found no write open, whose size the stage holds (log 16). Outside a frame the first
begins one (log 4). -/
def Obligations.WriteCharactersActAsTheyArrive : Prop :=
  (∀ (tag id start : Byte) (s : State), s.inReset = false →
      (s.rx.inFrame = false ∧ s.mgmt.address ≤ 62)
        ∨ (s.rx.inFrame = true ∧ s.rx.data.length = 2 ∧ s.rx.data.head? = some kindTableWrite
            ∧ (s.rx.target = some .own ∨ s.rx.target = some .all)) →
      ∃ t, exec (.writeStartIndexArrives tag id start) s = .next t
        ∧ t.mgmt.openWrite =
            (if h : id.toNat < 11 then
              if start.toNat < entryCount ⟨id.toNat, h⟩ then some { table := ⟨id.toNat, h⟩, pointer := start.toNat } else none
            else none)
        ∧ t.rx.inFrame = true ∧ t.rx.data.drop 2 = [tag, id, start]
        ∧ OnlyIn ([.receiver, .cPort, .openWrite] ++ pickParts) s t)
    ∧ (∀ (w : OpenWrite) (e : List Byte) (check : Byte) (chars : List RxChar) (s : State),
        dataOf chars = e ++ [check] → s.inReset = false → s.rx.inFrame = true →
        (s.rx.data.head? = some kindTableWrite ∨ s.rx.data.head? = some kindTableContinue) →
        (s.rx.target = some .own ∨ s.rx.target = some .all) → 3 ≤ s.rx.data.length →
        s.rx.data.length + e.length + 1 ≤ 253 → s.rx.write.stage = .entries → s.rx.write.buf = [] →
        s.mgmt.openWrite = some w → w.pointer < entryCount w.table → e.length = entrySize w.table →
        ∃ t, exec (.entryCrc8Arrives chars) s = .next t
          ∧ (check = crc8 e → s.loss.asserted = false → t.tables = (s.tables.store w.table w.pointer e).1
              ∧ t.rx.write.stored = s.rx.write.stored + 1
              ∧ t.mgmt.openWrite = some { w with pointer := (w.pointer + 1) % entryCount w.table })
          ∧ (check = crc8 e → s.loss.asserted = true → t.tables = s.tables ∧ t.rx.write.held = s.rx.write.held ++ [e]
              ∧ t.mgmt.openWrite = some w)
          ∧ (check ≠ crc8 e → t.tables = s.tables ∧ t.rx.write.stage = .failed ∧ t.flag .entryCheckFailed
              ∧ t.mgmt.openWrite = some w))
    ∧ ∀ (n : Nat) (e : List Byte) (check : Byte) (chars : List RxChar) (s : State),
        dataOf chars = e ++ [check] → s.inReset = false → s.rx.inFrame = true → s.rx.data.head? = some kindTableContinue →
        (s.rx.target = some .own ∨ s.rx.target = some .all) → 3 ≤ s.rx.data.length →
        s.rx.data.length + e.length + 1 ≤ 253 → s.rx.write.stage = .noWrite n → s.rx.write.buf = [] → e.length = n →
        ∃ t, exec (.entryCrc8Arrives chars) s = .next t
          ∧ (check = crc8 e → t.rx.write = s.rx.write ∧ t.mgmt.flags = s.mgmt.flags)
          ∧ (check ≠ crc8 e → t.rx.write.stage = .noWriteFailed ∧ t.flag .entryCheckFailed)
          ∧ OnlyIn ([.receiver, .cPort, .flags] ++ pickParts) s t

/-- R161 to R165 with log 3: a whole good frame does what its characters do one by one: its START, which breaks a frame being
received, kind and target, the other characters and END; and outside a frame FRAME_COMPLETE brings the START itself (log 4). A
receiver in which a START alone stands is as that START left it. -/
def Obligations.WholeFrameIsItsCharacters : Prop :=
  ∀ (kind target tag : Byte) (payload : List Byte) (s : State), s.inReset = false → payload.length ≤ 248 →
    (s.rx.inFrame = true → s.rx.data = [] → s.rx = { URx.outside with inFrame := true, blanked := s.rx.blanked }) →
    let whole := Instr.frameComplete ((withCrc ([kind, target, tag] ++ payload)).map .data)
    .next (settle (receive kind target tag payload s)) = exec whole (freshFrame s)
    ∧ (s.rx.inFrame = false → exec whole (freshFrame s) = exec whole s)

/-- R167, R161: return frames from the node below. -/
def Obligations.ReturnFramesAreKeptOrDropped : Prop :=
  (∀ (data : List Byte) (s : State), s.inReset = false → s.up.crx = .outside →
      let good := 5 ≤ data.length ∧ data.length ≤ 253 ∧ crcPasses data = true ∧ (data.head? = some 0x40 ∨ data.head? = some 0x41)
      ∃ t, exec (.returnFrame (.whole data)) s = .next t ∧ t.up.crx = .outside
        ∧ (∀ i : Fin 2, s.up.freeSlot = some i → good → t.up.slots[i] = .kept data
            ∧ (s.up.tx.isSome = true → t.up.order = s.up.order ++ [i]) ∧ Counted s t (times .returnDrops 0))
        ∧ (s.up.freeSlot = none ∨ ¬good → Counted s t (times .returnDrops 1)
            ∧ (s.up.tx.isSome = true → t.up.slots = s.up.slots ∧ t.up.order = s.up.order)))
    ∧ (∀ s : State, s.inReset = false → s.up.crx = .outside → ∃ t, exec (.returnFrame .opens) s = .next t
        ∧ (∀ i : Fin 2, s.up.freeSlot = some i → t.up.crx = .receiving i ∧ t.up.slots[i] = .receiving)
        ∧ (s.up.freeSlot = none → t.up.crx = .discarding ∧ Counted s t (times .returnDrops 1)))
    ∧ (∀ (i : Fin 2) (s : State), s.inReset = false → s.up.crx = .receiving i →
        ∀ c ∈ [Instr.returnFrame .aborts, .returnFrameSilence], ∃ t, exec c s = .next t ∧ t.up.crx = .outside
          ∧ t.up.slots[i] = .free ∧ Counted s t (times .returnDrops 1))
    ∧ ∀ (i : Fin 2) (data : List Byte) (s : State), s.inReset = false → s.up.crx = .receiving i →
        5 ≤ data.length → data.length ≤ 253 → crcPasses data = true → data.head? = some 0x40 →
        ∃ t, exec (.returnFrame (.closes data)) s = .next t ∧ t.up.crx = .outside ∧ t.up.slots[i] = .kept data
          ∧ Counted s t (times .returnDrops 0)

/-- R168, R182: what the U transmitter sends when the frame on it has gone out, and that no command but the resets takes a frame
off it before. That a REPLY is no longer pending once it is being sent is the model's choice (log 14). -/
def Obligations.UTransmitterPicksInOrder : Prop :=
  (∀ (x : UTx) (s : State), s.inReset = false → s.up.tx = some x →
      let turn := match x with
        | .reply _ => s.up.turn
        | .alert _ => Turn.returns
        | .returned _ => Turn.alert
      ∃ t, exec .uTransmitEnd s = .next t ∧ t.up.turn = turn
        ∧ (∀ i, x = .returned i → t.up.slots[i] = .free)
        ∧ t.up.tx = (match s.up.reply, s.up.order, s.mgmt.alertPending with
            | some f, _, _ => some (.reply f)
            | none, [], false => none
            | none, [], true => some (.alert (alertFrame s))
            | none, i :: _, false => some (.returned i)
            | none, i :: _, true => if turn = .alert then some (.alert (alertFrame s)) else some (.returned i))
        ∧ (t.up.tx = some (.alert (alertFrame s)) → t.mgmt.newly = 0))
    ∧ ∀ (c : Instr) (x : UTx) (s t : State), s.up.tx = some x → c ≠ .uTransmitEnd → c ≠ .resetPinLow →
        (∀ straps, c ≠ .powerOnReset straps) → exec c s = .next t → t.up.tx = some x

/-! ### Panel links and the exercise (chapters 7 and 8) -/

/-- R136, R137, R138, R130, R135: what a pick on a free line begins. -/
def Obligations.SchedulerPickServesTheFirstClass : Prop :=
  ∀ (l : LinkIx) (s : State), s.inReset = false →
    let has (k : WorkClass) : Prop := ∃ p, panelLink p = l ∧ s.inClass k p = true
    let begins (k : WorkClass) (t : State) : Prop := ∃ q : Sequence, (t.link l).sequence = some q
      ∧ (t.link l).activity = .sendingSequence ∧ (t.link l).lastServed = panelAddr q.panel
      ∧ (t.link l).phasePending = (s.link l).phasePending ∧ q.cls = k ∧ panelLink q.panel = l ∧ s.inClass k q.panel = true
      ∧ (∀ p, panelLink p = l → s.inClass k p = true →
          afterServed (s.link l).lastServed (panelAddr q.panel) ≤ afterServed (s.link l).lastServed (panelAddr p))
      ∧ q.version = (s.content q.panel).version ∧ q.urgent = (s.content q.panel).content.urgent
      ∧ q.kind = (s.content q.panel).content.kind ∧ q.chime = (s.content q.panel).content.chime
      ∧ q.lines = (s.content q.panel).content.lines.take (s.panelEntry q.panel).lines
    ∃ t, exec (.schedulerPick l) s = .next t
      ∧ ((s.link l).free = false → t.link l = s.link l)
      ∧ ((s.link l).free = true →
          (has .urgent → begins .urgent t)
          ∧ (¬has .urgent → (s.link l).phasePending = true →
              t.link l = { s.link l with
                activity := .sendingPhase, phasePending := false
                phaseOnLine := some ([0, 1, 2, 3].map fun i : TimerIx => ((s.timer i).phase, (s.timer i).cycle)) })
          ∧ (¬has .urgent → (s.link l).phasePending = false →
              (has .ordinary → begins .ordinary t)
              ∧ (¬has .ordinary → has .keepAlive → begins .keepAlive t)
              ∧ (¬has .ordinary → ¬has .keepAlive → has .retry → begins .retry t)
              ∧ (¬has .ordinary → ¬has .keepAlive → ¬has .retry → t.link l = s.link l)))

/-- R130, R131, R153, R135, R148, R151: the ends of the frames a link sends. A line that falls free with no run and no adoption
waiting for it is picked for (R136). A run waits for an ABORT as for a PHASE frame (log 18), and its first frame goes out
also where an end has been requested meanwhile (log 19). -/
def Obligations.FramesSentOnALine : Prop :=
  ∀ (l : LinkIx) (s : State), s.inReset = false →
    ((s.link l).activity = .sendingSequence → (s.link l).sequence.isSome = true → ∃ t, exec (.lastLineSent l) s = .next t
      ∧ t.link l = { s.link l with activity := .awaitingAck })
    ∧ (s.exerciseInFlight l = true → ∃ t, exec (.exerciseFrameSent l) s = .next t
        ∧ t.exercise = { s.exercise with awaiting := true } ∧ OnlyIn (.exercise :: pickParts) s t)
    ∧ ((s.link l).phaseOnLine.isSome = true →
        (s.runs l = true → (s.link l).activity = .exercise → ∃ t, exec (.phaseFrameEnd l) s = .next t ∧ (t.link l).phaseOnLine = none
          ∧ t.exercise.framesSent = min (s.exercise.framesSent + 1) 4294967295
          ∧ t.exercise.flight = some (Gen.take 16 s.exercise.gen).2)
        ∧ (s.runs l = false → s.lineUnclaimed l →
            exec (.phaseFrameEnd l) s =
              exec (.schedulerPick l) (s.setLink l { s.link l with phaseOnLine := none, activity := .idleFill })))
    ∧ ((s.link l).aborting = true →
        (s.runs l = true → ∃ t, exec (.panelLinkAbortSent l) s = .next t ∧ (t.link l).aborting = false
          ∧ t.exercise.framesSent = min (s.exercise.framesSent + 1) 4294967295
          ∧ t.exercise.flight = some (Gen.take 16 s.exercise.gen).2)
        ∧ (s.runs l = false → s.lineUnclaimed l →
            exec (.panelLinkAbortSent l) s =
              exec (.schedulerPick l) (s.setLink l { s.link l with aborting := false, activity := .idleFill })))

/-- R131, R142, R143, R144, R140: a sequence that ends as a miss: no reply, a broken reply, or a reply that is no ACK of the
panel. -/
def Obligations.MissedSequenceCountsAgainstThePanel : Prop :=
  ∀ (l : LinkIx) (q : Sequence) (data : List Byte) (s : State), s.inReset = false → (s.link l).activity = .awaitingAck →
    (s.link l).sequence = some q →
    let h := s.healthOf q.panel
    let misses := min (h.misses + 1) 255
    let faulted := h.faulted || decide (s.profile.assertThreshold ≤ misses)
    ∀ c ∈ [Instr.replyWindowEnd l, .replyFrameBroken l, .ack l data, .echo l data],
      (c = .ack l data ∨ c = .echo l data → ¬isAckOf q.panel data) → ∃ t, exec c s = .next t
        ∧ t.healthOf q.panel =
            { h with
              misses := misses, goods := 0, faulted := faulted, delta := h.delta || (faulted != h.faulted)
              retry := if q.cls = .retry ∨ faulted ≠ h.faulted then s.profile.retry else h.retry }
        ∧ (∀ p, p ≠ q.panel → t.healthOf p = s.healthOf p)
        ∧ (faulted ≠ h.faulted → t.flag .panelFaultChange)
        ∧ Counted s t (times .panelMisses 1) ∧ OnlyIn outcomeParts s t

/-- R132, R133, R142, R143, R139, R140: an ACK of version `a` taken for a sequence. R40: where no adoption follows, which would
recompose the panel in the same command, an ACK that covers the pending chime delivers it, and any other leaves the lantern record;
the acknowledged version is stated where no chime is delivered. That every version covers once the versions have come round is
log 11. -/
def Obligations.AckUpdatesThePanel : Prop :=
  ∀ (l : LinkIx) (q : Sequence) (data : List Byte) (s : State), s.inReset = false → (s.link l).activity = .awaitingAck →
    (s.link l).sequence = some q → isAckOf q.panel data →
    let a := data.getD 2 0
    let status := data.getD 4 0
    let good := decide (a = q.version)
    let h := s.healthOf q.panel
    let misses := if good then 0 else min (h.misses + 1) 255
    let goods := if good then min (h.goods + 1) 255 else 0
    let faulted := if good then h.faulted && !decide (s.profile.clearThreshold ≤ goods)
      else h.faulted || decide (s.profile.assertThreshold ≤ misses)
    let differs := decide ((data.getD 3 0).toNat ≠ (s.panelEntry q.panel).kind.code)
    let r := s.content q.panel
    ∀ c ∈ [Instr.ack l data, .echo l data], ∃ t, exec c s = .next t
      ∧ t.healthOf q.panel =
          { misses := misses, goods := goods, faulted := faulted, delta := h.delta || (faulted != h.faulted)
            kindMismatch := differs, lampFault := status.getLsbD 0, tempWarning := status.getLsbD 1
            keepAlive := if good then s.profile.keepAlive else h.keepAlive
            retry := if q.cls = .retry ∨ (faulted = true ∧ h.faulted = false) then s.profile.retry else h.retry }
      ∧ (∀ p, p ≠ q.panel → t.healthOf p = s.healthOf p)
      ∧ (faulted ≠ h.faulted → t.flag .panelFaultChange)
      ∧ (differs = true → h.kindMismatch = false → t.flag .kindMismatch)
      ∧ Counted s t (times .panelMisses (if good then 0 else 1))
      ∧ (s.lineUnclaimed l →
          (∀ k, s.lantern q.panel = some k → k.Covers a r.version →
              t.lantern q.panel = some { k with chime := .none, chimeVersion := none, chimeRound := false }
              ∧ (t.content q.panel).content.chime = .none
              ∧ (r.content.chime ≠ .none → (t.content q.panel).version = r.version + 1))
          ∧ ((∀ k, s.lantern q.panel = some k → ¬k.Covers a r.version) → t.lantern q.panel = s.lantern q.panel
              ∧ t.content q.panel =
                  { r with
                    acked := if a = q.version then some a else if a = r.version then none else some a
                    ackedUrgent := if a = q.version then q.urgent else r.ackedUrgent }))
      ∧ OnlyIn outcomeParts s t

/-- R154, R155, R153: the outcome of an exercise frame: an echo with its differing bytes, or a missing echo; then the end of the
window, a requested end, or the next frame (stated where no adoption is pending on the link). -/
def Obligations.EchoIsCompared : Prop :=
  ∀ (l : LinkIx) (sent : List Byte) (data : List Byte) (s : State), s.inReset = false → (s.link l).activity = .exercise →
    s.runs l = true → s.exercise.flight = some sent → sent.length = 16 → s.exercise.awaiting = true →
    s.exercise.startPending = false → s.adoptionPending l = false →
    let x := s.exercise
    ∀ c ∈ [Instr.echo l data, .ack l data, .replyWindowEnd l, .replyFrameBroken l],
      let echo := (c = .echo l data ∨ c = .ack l data) ∧ isEchoOf x.panel data
      ∀ errors : Nat,
        (echo → errors = (List.range 16).countP fun i => decide ((data.drop 2).getD i 0 ≠ sent.getD i 0)) →
        (¬echo → errors = 0) →
        let after : Exercise → Prop := fun y =>
          y.errorBytes = min (x.errorBytes + errors) 4294967295
          ∧ (x.firstError = none → ¬echo ∨ errors ≠ 0 → y.firstError = some x.framesSent)
          ∧ (x.firstError ≠ none ∨ (echo ∧ errors = 0) → y.firstError = x.firstError)
          ∧ (echo → y.missing = x.missing) ∧ (¬echo → y.missing = min (x.missing + 1) 65535)
        ∃ t, exec c s = .next t ∧ after t.exercise
          ∧ (x.window.frames = some x.framesSent →
              t.exercise.state = .done ∧ t.exercise.cause = .window ∧ t.exercise.endRequested = false ∧ t.flag .exerciseEnded)
          ∧ (x.window.frames ≠ some x.framesSent → x.endRequested = true →
              t.exercise.state = .aborted ∧ t.exercise.cause = x.cause ∧ t.exercise.endRequested = false
              ∧ t.flag .exerciseEnded)
          ∧ (x.window.frames ≠ some x.framesSent → x.endRequested = false →
              t.exercise.state = .running ∧ t.exercise.framesSent = min (x.framesSent + 1) 4294967295
              ∧ t.exercise.flight = some (Gen.take 16 x.gen).2 ∧ (t.link l).activity = .exercise)

/-! ### What every step keeps -/

/-- The state after reset meets every law below. -/
def Obligations.ResetMeetsEveryLaw : Prop :=
  State.reset.CountersBounded ∧ State.reset.NewlyRaisedOk ∧ State.reset.QueuesOk ∧ State.reset.ClosedKiosksEmpty
    ∧ State.reset.ActiveEnabled ∧ State.reset.CarsOk ∧ State.reset.TimersOk ∧ State.reset.LossOk ∧ State.reset.DelayOk
    ∧ State.reset.OpenWriteOk ∧ State.reset.LanternsOk ∧ State.reset.ContentsFresh ∧ State.reset.LinksOk
    ∧ State.reset.SlotsOk ∧ State.reset.UpSettled ∧ State.reset.tables.Ok

/-- R180, R182: every counter lies between 0 and 65,535, and the newly raised set holds flags that are set and enabled. -/
def Obligations.CountersAndNewlyRaisedStaySound : Prop :=
  ∀ s t : State, s.CountersBounded ∧ s.NewlyRaisedOk → step s = .next t → t.CountersBounded ∧ t.NewlyRaisedOk

/-- R47, R62, R71: a queue holds at most 8 records, no ticket twice; no disabled or closed kiosk holds a record; every active
notice is enabled. -/
def Obligations.QueuesAndNoticesStaySound : Prop :=
  ∀ s t : State, s.QueuesOk ∧ s.ClosedKiosksEmpty ∧ s.ActiveEnabled → step s = .next t →
    t.QueuesOk ∧ t.ClosedKiosksEmpty ∧ t.ActiveEnabled

/-- R12, R6: a present car's decks display NONE or a floor of the candidate set. -/
def Obligations.DisplayedFloorsStayCandidates : Prop :=
  ∀ s t : State, s.CarsOk → step s = .next t → t.CarsOk

/-- R90, R88, R166, R164, R174: timers count within 0 to 65,535 and are not both running and armed; the loss countdown stands
at 0 during loss; the delay line holds at most three extra characters; an open write points into its table. -/
def Obligations.TimersLossAndPortsStaySound : Prop :=
  ∀ s t : State, s.TimersOk ∧ s.LossOk ∧ s.DelayOk ∧ s.OpenWriteOk → step s = .next t →
    t.TimersOk ∧ t.LossOk ∧ t.DelayOk ∧ t.OpenWriteOk

/-- R151, R129, R135, R148: while an exercise runs no refresh sequence is on its link, and a PHASE frame only before its first
frame; what stands on each line agrees with its activity. R167, R168: each return slot is free, being received into, or held by
one kept frame, which waits or is being sent; and nothing waits for a transmitter that sends nothing. That a line keeps its activity
while the ABORT of a NODE RESET goes out, and that a run begun meanwhile has no frame in flight until then, is the model's choice
(log 18). -/
def Obligations.LinesAndSlotsStayConsistent : Prop :=
  (∀ s t : State, s.LinksOk → step s = .next t → t.LinksOk)
    ∧ (∀ s t : State, s.SlotsOk → step s = .next t → t.SlotsOk)
    ∧ ∀ s t : State, s.UpSettled → step s = .next t → t.UpSettled

/-- R109, R112, R113, R31, R36, R39, R40, R172: every panel's content is what the composition order gives now, from the route of
the bank in use on its own link; a lantern record stands exactly where R30 is met, holds nothing of a visit while DARK, and has a
chime version only for a pending chime, which has been given; every table entry is in range. Two points are the model's: contents are
compared up to the panel's line count (log 13), and the arrow is drawn by the moving threshold as it stands (log 31). -/
def Obligations.ContentsAndLanternsStayCurrent : Prop :=
  ∀ s t : State, s.tables.Ok ∧ s.LanternsOk ∧ s.ContentsFresh → step s = .next t →
    t.tables.Ok ∧ t.LanternsOk ∧ t.ContentsFresh

/-! ### What no step does -/

/-- R130: a sequence being sent stays on its line as it was copied, to its end, whatever is taken meanwhile; only the ABORT of a
NODE RESET (its row, or the frame that completes one) or a power-on reset cuts it. That the line is marked while that ABORT goes
out is log 18. -/
def Obligations.SequencesStayWhole : Prop :=
  ∀ (l : LinkIx) (q : Sequence) (c : Instr) (s t : State), s.LinksOk → (s.link l).activity = .sendingSequence →
    (s.link l).sequence = some q → (∀ straps, c ≠ .powerOnReset straps) → c ≠ .resetPinLow → exec c s = .next t →
    (t.link l).sequence = some q ∨ (s.carriesReset c ∧ (t.link l).aborting = true ∧ (t.link l).sequence = none)

/-- R143: a panel becomes faulted only at or above the assert threshold of consecutive misses, and unfaulted only at or above
the clear threshold of consecutive goods or by a reset. That the health is kept while the reset pin is low is the model's choice
(log 20). -/
def Obligations.FaultsFollowTheThresholds : Prop :=
  ∀ (p : PanelIx) (c : Instr) (s t : State), exec c s = .next t →
    ((s.healthOf p).faulted = false → (t.healthOf p).faulted = true → s.profile.assertThreshold ≤ (t.healthOf p).misses)
    ∧ ((s.healthOf p).faulted = true → (t.healthOf p).faulted = false →
        s.profile.clearThreshold ≤ (t.healthOf p).goods
          ∨ (((∃ straps, c = .powerOnReset straps) ∨ s.carriesReset c) ∧ t.healthOf p = .powerOn))

/-- R180, R181: a counter falls only by a clearing COUNTER READ, a node reset or a power-on reset; a flag is cleared only by an
ALERT CLEAR, a node reset or a power-on reset. (FRAME_COMPLETE may carry any of these requests.)
That both are kept while the reset pin is low, until its release, is the model's choice (log 20). -/
def Obligations.CountersAndFlagsOnlyGrow : Prop :=
  ∀ (c : Instr) (s t : State), exec c s = .next t → (∀ straps, c ≠ .powerOnReset straps) →
    (∀ dest tag d, c ≠ .nodeReset dest tag d) → (∀ d, c ≠ .frameComplete d) →
    ((∀ dest tag, c ≠ .counterReadClear dest tag) → ∀ k, s.mgmt.counter k ≤ t.mgmt.counter k)
    ∧ ((∀ dest tag d, c ≠ .alertClear dest tag d) → ∀ a, s.flag a → t.flag a)

/-- R174: while dispatch loss is and stays asserted no entry is stored; only a power-on reset changes a table. That the
tables are kept while the reset pin is low, until its release, is the model's choice (log 20). -/
def Obligations.TablesStandStillInLoss : Prop :=
  ∀ (c : Instr) (s t : State), s.loss.asserted = true → exec c s = .next t → t.loss.asserted = true →
    (∀ straps, c ≠ .powerOnReset straps) → t.tables = s.tables
end

