-- ==== Sys2Proof/Laws/State.lean ====
section
/-! SUPPORT. What each update of the state does to each field: one lemma per field per update, so that no proof unfolds one. -/

-- Many short proofs: elaborated one after another, they need no thread each.
set_option Elab.async false

namespace Sys2Proof.Machine

variable (s : State)

/-! ### setInReset -/

@[simp] theorem State.setInReset_pending (x : Bool) : (s.setInReset x).pending = s.pending := rfl
@[simp] theorem State.setInReset_inReset (x : Bool) : (s.setInReset x).inReset = x := rfl
@[simp] theorem State.setInReset_tables (x : Bool) : (s.setInReset x).tables = s.tables := rfl
@[simp] theorem State.setInReset_cars (x : Bool) : (s.setInReset x).cars = s.cars := rfl
@[simp] theorem State.setInReset_lanterns (x : Bool) : (s.setInReset x).lanterns = s.lanterns := rfl
@[simp] theorem State.setInReset_queues (x : Bool) : (s.setInReset x).queues = s.queues := rfl
@[simp] theorem State.setInReset_active (x : Bool) : (s.setInReset x).active = s.active := rfl
@[simp] theorem State.setInReset_baseCount (x : Bool) : (s.setInReset x).baseCount = s.baseCount := rfl
@[simp] theorem State.setInReset_timers (x : Bool) : (s.setInReset x).timers = s.timers := rfl
@[simp] theorem State.setInReset_contents (x : Bool) : (s.setInReset x).contents = s.contents := rfl
@[simp] theorem State.setInReset_health (x : Bool) : (s.setInReset x).health = s.health := rfl
@[simp] theorem State.setInReset_links (x : Bool) : (s.setInReset x).links = s.links := rfl
@[simp] theorem State.setInReset_exercise (x : Bool) : (s.setInReset x).exercise = s.exercise := rfl
@[simp] theorem State.setInReset_loss (x : Bool) : (s.setInReset x).loss = s.loss := rfl
@[simp] theorem State.setInReset_rx (x : Bool) : (s.setInReset x).rx = s.rx := rfl
@[simp] theorem State.setInReset_cport (x : Bool) : (s.setInReset x).cport = s.cport := rfl
@[simp] theorem State.setInReset_up (x : Bool) : (s.setInReset x).up = s.up := rfl
@[simp] theorem State.setInReset_mgmt (x : Bool) : (s.setInReset x).mgmt = s.mgmt := rfl
@[simp] theorem State.setInReset_draws (x : Bool) : (s.setInReset x).draws = s.draws := rfl

/-! ### setTables -/

@[simp] theorem State.setTables_pending (x : Tables) : (s.setTables x).pending = s.pending := rfl
@[simp] theorem State.setTables_inReset (x : Tables) : (s.setTables x).inReset = s.inReset := rfl
@[simp] theorem State.setTables_tables (x : Tables) : (s.setTables x).tables = x := rfl
@[simp] theorem State.setTables_cars (x : Tables) : (s.setTables x).cars = s.cars := rfl
@[simp] theorem State.setTables_lanterns (x : Tables) : (s.setTables x).lanterns = s.lanterns := rfl
@[simp] theorem State.setTables_queues (x : Tables) : (s.setTables x).queues = s.queues := rfl
@[simp] theorem State.setTables_active (x : Tables) : (s.setTables x).active = s.active := rfl
@[simp] theorem State.setTables_baseCount (x : Tables) : (s.setTables x).baseCount = s.baseCount := rfl
@[simp] theorem State.setTables_timers (x : Tables) : (s.setTables x).timers = s.timers := rfl
@[simp] theorem State.setTables_contents (x : Tables) : (s.setTables x).contents = s.contents := rfl
@[simp] theorem State.setTables_health (x : Tables) : (s.setTables x).health = s.health := rfl
@[simp] theorem State.setTables_links (x : Tables) : (s.setTables x).links = s.links := rfl
@[simp] theorem State.setTables_exercise (x : Tables) : (s.setTables x).exercise = s.exercise := rfl
@[simp] theorem State.setTables_loss (x : Tables) : (s.setTables x).loss = s.loss := rfl
@[simp] theorem State.setTables_rx (x : Tables) : (s.setTables x).rx = s.rx := rfl
@[simp] theorem State.setTables_cport (x : Tables) : (s.setTables x).cport = s.cport := rfl
@[simp] theorem State.setTables_up (x : Tables) : (s.setTables x).up = s.up := rfl
@[simp] theorem State.setTables_mgmt (x : Tables) : (s.setTables x).mgmt = s.mgmt := rfl
@[simp] theorem State.setTables_draws (x : Tables) : (s.setTables x).draws = s.draws := rfl

/-! ### setCar -/

@[simp] theorem State.setCar_pending (c : CarIx) (x : CarRec) : (s.setCar c x).pending = s.pending := rfl
@[simp] theorem State.setCar_inReset (c : CarIx) (x : CarRec) : (s.setCar c x).inReset = s.inReset := rfl
@[simp] theorem State.setCar_tables (c : CarIx) (x : CarRec) : (s.setCar c x).tables = s.tables := rfl
@[simp] theorem State.setCar_lanterns (c : CarIx) (x : CarRec) : (s.setCar c x).lanterns = s.lanterns := rfl
@[simp] theorem State.setCar_queues (c : CarIx) (x : CarRec) : (s.setCar c x).queues = s.queues := rfl
@[simp] theorem State.setCar_active (c : CarIx) (x : CarRec) : (s.setCar c x).active = s.active := rfl
@[simp] theorem State.setCar_baseCount (c : CarIx) (x : CarRec) : (s.setCar c x).baseCount = s.baseCount := rfl
@[simp] theorem State.setCar_timers (c : CarIx) (x : CarRec) : (s.setCar c x).timers = s.timers := rfl
@[simp] theorem State.setCar_contents (c : CarIx) (x : CarRec) : (s.setCar c x).contents = s.contents := rfl
@[simp] theorem State.setCar_health (c : CarIx) (x : CarRec) : (s.setCar c x).health = s.health := rfl
@[simp] theorem State.setCar_links (c : CarIx) (x : CarRec) : (s.setCar c x).links = s.links := rfl
@[simp] theorem State.setCar_exercise (c : CarIx) (x : CarRec) : (s.setCar c x).exercise = s.exercise := rfl
@[simp] theorem State.setCar_loss (c : CarIx) (x : CarRec) : (s.setCar c x).loss = s.loss := rfl
@[simp] theorem State.setCar_rx (c : CarIx) (x : CarRec) : (s.setCar c x).rx = s.rx := rfl
@[simp] theorem State.setCar_cport (c : CarIx) (x : CarRec) : (s.setCar c x).cport = s.cport := rfl
@[simp] theorem State.setCar_up (c : CarIx) (x : CarRec) : (s.setCar c x).up = s.up := rfl
@[simp] theorem State.setCar_mgmt (c : CarIx) (x : CarRec) : (s.setCar c x).mgmt = s.mgmt := rfl
@[simp] theorem State.setCar_draws (c : CarIx) (x : CarRec) : (s.setCar c x).draws = s.draws := rfl
theorem State.setCar_car (c : CarIx) (x : CarRec) (c' : CarIx) : (s.setCar c x).car c' = if c = c' then x else s.car c' := by
  simp [State.setCar, State.car, Vector.getElem_set, Fin.ext_iff]
@[simp] theorem State.setCar_car_self (c : CarIx) (x : CarRec) : (s.setCar c x).car c = x := by simp [State.setCar_car]
theorem State.setCar_car_ne (c : CarIx) (x : CarRec) (c' : CarIx) (h : c ≠ c') : (s.setCar c x).car c' = s.car c' := by
  simp [State.setCar_car, h]

/-! ### setLantern -/

@[simp] theorem State.setLantern_pending (p : PanelIx) (x : Option Lantern) : (s.setLantern p x).pending = s.pending := rfl
@[simp] theorem State.setLantern_inReset (p : PanelIx) (x : Option Lantern) : (s.setLantern p x).inReset = s.inReset := rfl
@[simp] theorem State.setLantern_tables (p : PanelIx) (x : Option Lantern) : (s.setLantern p x).tables = s.tables := rfl
@[simp] theorem State.setLantern_cars (p : PanelIx) (x : Option Lantern) : (s.setLantern p x).cars = s.cars := rfl
@[simp] theorem State.setLantern_queues (p : PanelIx) (x : Option Lantern) : (s.setLantern p x).queues = s.queues := rfl
@[simp] theorem State.setLantern_active (p : PanelIx) (x : Option Lantern) : (s.setLantern p x).active = s.active := rfl
@[simp] theorem State.setLantern_baseCount (p : PanelIx) (x : Option Lantern) : (s.setLantern p x).baseCount = s.baseCount := rfl
@[simp] theorem State.setLantern_timers (p : PanelIx) (x : Option Lantern) : (s.setLantern p x).timers = s.timers := rfl
@[simp] theorem State.setLantern_contents (p : PanelIx) (x : Option Lantern) : (s.setLantern p x).contents = s.contents := rfl
@[simp] theorem State.setLantern_health (p : PanelIx) (x : Option Lantern) : (s.setLantern p x).health = s.health := rfl
@[simp] theorem State.setLantern_links (p : PanelIx) (x : Option Lantern) : (s.setLantern p x).links = s.links := rfl
@[simp] theorem State.setLantern_exercise (p : PanelIx) (x : Option Lantern) : (s.setLantern p x).exercise = s.exercise := rfl
@[simp] theorem State.setLantern_loss (p : PanelIx) (x : Option Lantern) : (s.setLantern p x).loss = s.loss := rfl
@[simp] theorem State.setLantern_rx (p : PanelIx) (x : Option Lantern) : (s.setLantern p x).rx = s.rx := rfl
@[simp] theorem State.setLantern_cport (p : PanelIx) (x : Option Lantern) : (s.setLantern p x).cport = s.cport := rfl
@[simp] theorem State.setLantern_up (p : PanelIx) (x : Option Lantern) : (s.setLantern p x).up = s.up := rfl
@[simp] theorem State.setLantern_mgmt (p : PanelIx) (x : Option Lantern) : (s.setLantern p x).mgmt = s.mgmt := rfl
@[simp] theorem State.setLantern_draws (p : PanelIx) (x : Option Lantern) : (s.setLantern p x).draws = s.draws := rfl
theorem State.setLantern_lantern (p : PanelIx) (x : Option Lantern) (p' : PanelIx) : (s.setLantern p x).lantern p' = if p = p' then x else s.lantern p' := by
  simp [State.setLantern, State.lantern, Vector.getElem_set, Fin.ext_iff]
@[simp] theorem State.setLantern_lantern_self (p : PanelIx) (x : Option Lantern) : (s.setLantern p x).lantern p = x := by simp [State.setLantern_lantern]
theorem State.setLantern_lantern_ne (p : PanelIx) (x : Option Lantern) (p' : PanelIx) (h : p ≠ p') : (s.setLantern p x).lantern p' = s.lantern p' := by
  simp [State.setLantern_lantern, h]

/-! ### setQueue -/

@[simp] theorem State.setQueue_pending (k : KioskIx) (x : List Prompt) : (s.setQueue k x).pending = s.pending := rfl
@[simp] theorem State.setQueue_inReset (k : KioskIx) (x : List Prompt) : (s.setQueue k x).inReset = s.inReset := rfl
@[simp] theorem State.setQueue_tables (k : KioskIx) (x : List Prompt) : (s.setQueue k x).tables = s.tables := rfl
@[simp] theorem State.setQueue_cars (k : KioskIx) (x : List Prompt) : (s.setQueue k x).cars = s.cars := rfl
@[simp] theorem State.setQueue_lanterns (k : KioskIx) (x : List Prompt) : (s.setQueue k x).lanterns = s.lanterns := rfl
@[simp] theorem State.setQueue_active (k : KioskIx) (x : List Prompt) : (s.setQueue k x).active = s.active := rfl
@[simp] theorem State.setQueue_baseCount (k : KioskIx) (x : List Prompt) : (s.setQueue k x).baseCount = s.baseCount := rfl
@[simp] theorem State.setQueue_timers (k : KioskIx) (x : List Prompt) : (s.setQueue k x).timers = s.timers := rfl
@[simp] theorem State.setQueue_contents (k : KioskIx) (x : List Prompt) : (s.setQueue k x).contents = s.contents := rfl
@[simp] theorem State.setQueue_health (k : KioskIx) (x : List Prompt) : (s.setQueue k x).health = s.health := rfl
@[simp] theorem State.setQueue_links (k : KioskIx) (x : List Prompt) : (s.setQueue k x).links = s.links := rfl
@[simp] theorem State.setQueue_exercise (k : KioskIx) (x : List Prompt) : (s.setQueue k x).exercise = s.exercise := rfl
@[simp] theorem State.setQueue_loss (k : KioskIx) (x : List Prompt) : (s.setQueue k x).loss = s.loss := rfl
@[simp] theorem State.setQueue_rx (k : KioskIx) (x : List Prompt) : (s.setQueue k x).rx = s.rx := rfl
@[simp] theorem State.setQueue_cport (k : KioskIx) (x : List Prompt) : (s.setQueue k x).cport = s.cport := rfl
@[simp] theorem State.setQueue_up (k : KioskIx) (x : List Prompt) : (s.setQueue k x).up = s.up := rfl
@[simp] theorem State.setQueue_mgmt (k : KioskIx) (x : List Prompt) : (s.setQueue k x).mgmt = s.mgmt := rfl
@[simp] theorem State.setQueue_draws (k : KioskIx) (x : List Prompt) : (s.setQueue k x).draws = s.draws := rfl
theorem State.setQueue_queue (k : KioskIx) (x : List Prompt) (k' : KioskIx) : (s.setQueue k x).queue k' = if k = k' then x else s.queue k' := by
  simp [State.setQueue, State.queue, Vector.getElem_set, Fin.ext_iff]
@[simp] theorem State.setQueue_queue_self (k : KioskIx) (x : List Prompt) : (s.setQueue k x).queue k = x := by simp [State.setQueue_queue]
theorem State.setQueue_queue_ne (k : KioskIx) (x : List Prompt) (k' : KioskIx) (h : k ≠ k') : (s.setQueue k x).queue k' = s.queue k' := by
  simp [State.setQueue_queue, h]

/-! ### setActive -/

@[simp] theorem State.setActive_pending (n : NoticeIx) (x : Bool) : (s.setActive n x).pending = s.pending := rfl
@[simp] theorem State.setActive_inReset (n : NoticeIx) (x : Bool) : (s.setActive n x).inReset = s.inReset := rfl
@[simp] theorem State.setActive_tables (n : NoticeIx) (x : Bool) : (s.setActive n x).tables = s.tables := rfl
@[simp] theorem State.setActive_cars (n : NoticeIx) (x : Bool) : (s.setActive n x).cars = s.cars := rfl
@[simp] theorem State.setActive_lanterns (n : NoticeIx) (x : Bool) : (s.setActive n x).lanterns = s.lanterns := rfl
@[simp] theorem State.setActive_queues (n : NoticeIx) (x : Bool) : (s.setActive n x).queues = s.queues := rfl
@[simp] theorem State.setActive_baseCount (n : NoticeIx) (x : Bool) : (s.setActive n x).baseCount = s.baseCount := rfl
@[simp] theorem State.setActive_timers (n : NoticeIx) (x : Bool) : (s.setActive n x).timers = s.timers := rfl
@[simp] theorem State.setActive_contents (n : NoticeIx) (x : Bool) : (s.setActive n x).contents = s.contents := rfl
@[simp] theorem State.setActive_health (n : NoticeIx) (x : Bool) : (s.setActive n x).health = s.health := rfl
@[simp] theorem State.setActive_links (n : NoticeIx) (x : Bool) : (s.setActive n x).links = s.links := rfl
@[simp] theorem State.setActive_exercise (n : NoticeIx) (x : Bool) : (s.setActive n x).exercise = s.exercise := rfl
@[simp] theorem State.setActive_loss (n : NoticeIx) (x : Bool) : (s.setActive n x).loss = s.loss := rfl
@[simp] theorem State.setActive_rx (n : NoticeIx) (x : Bool) : (s.setActive n x).rx = s.rx := rfl
@[simp] theorem State.setActive_cport (n : NoticeIx) (x : Bool) : (s.setActive n x).cport = s.cport := rfl
@[simp] theorem State.setActive_up (n : NoticeIx) (x : Bool) : (s.setActive n x).up = s.up := rfl
@[simp] theorem State.setActive_mgmt (n : NoticeIx) (x : Bool) : (s.setActive n x).mgmt = s.mgmt := rfl
@[simp] theorem State.setActive_draws (n : NoticeIx) (x : Bool) : (s.setActive n x).draws = s.draws := rfl
theorem State.setActive_isActive (n : NoticeIx) (x : Bool) (n' : NoticeIx) : (s.setActive n x).isActive n' = if n = n' then x else s.isActive n' := by
  simp [State.setActive, State.isActive, Vector.getElem_set, Fin.ext_iff]
@[simp] theorem State.setActive_isActive_self (n : NoticeIx) (x : Bool) : (s.setActive n x).isActive n = x := by simp [State.setActive_isActive]
theorem State.setActive_isActive_ne (n : NoticeIx) (x : Bool) (n' : NoticeIx) (h : n ≠ n') : (s.setActive n x).isActive n' = s.isActive n' := by
  simp [State.setActive_isActive, h]

/-! ### setBaseCount -/

@[simp] theorem State.setBaseCount_pending (x : Nat) : (s.setBaseCount x).pending = s.pending := rfl
@[simp] theorem State.setBaseCount_inReset (x : Nat) : (s.setBaseCount x).inReset = s.inReset := rfl
@[simp] theorem State.setBaseCount_tables (x : Nat) : (s.setBaseCount x).tables = s.tables := rfl
@[simp] theorem State.setBaseCount_cars (x : Nat) : (s.setBaseCount x).cars = s.cars := rfl
@[simp] theorem State.setBaseCount_lanterns (x : Nat) : (s.setBaseCount x).lanterns = s.lanterns := rfl
@[simp] theorem State.setBaseCount_queues (x : Nat) : (s.setBaseCount x).queues = s.queues := rfl
@[simp] theorem State.setBaseCount_active (x : Nat) : (s.setBaseCount x).active = s.active := rfl
@[simp] theorem State.setBaseCount_baseCount (x : Nat) : (s.setBaseCount x).baseCount = x := rfl
@[simp] theorem State.setBaseCount_timers (x : Nat) : (s.setBaseCount x).timers = s.timers := rfl
@[simp] theorem State.setBaseCount_contents (x : Nat) : (s.setBaseCount x).contents = s.contents := rfl
@[simp] theorem State.setBaseCount_health (x : Nat) : (s.setBaseCount x).health = s.health := rfl
@[simp] theorem State.setBaseCount_links (x : Nat) : (s.setBaseCount x).links = s.links := rfl
@[simp] theorem State.setBaseCount_exercise (x : Nat) : (s.setBaseCount x).exercise = s.exercise := rfl
@[simp] theorem State.setBaseCount_loss (x : Nat) : (s.setBaseCount x).loss = s.loss := rfl
@[simp] theorem State.setBaseCount_rx (x : Nat) : (s.setBaseCount x).rx = s.rx := rfl
@[simp] theorem State.setBaseCount_cport (x : Nat) : (s.setBaseCount x).cport = s.cport := rfl
@[simp] theorem State.setBaseCount_up (x : Nat) : (s.setBaseCount x).up = s.up := rfl
@[simp] theorem State.setBaseCount_mgmt (x : Nat) : (s.setBaseCount x).mgmt = s.mgmt := rfl
@[simp] theorem State.setBaseCount_draws (x : Nat) : (s.setBaseCount x).draws = s.draws := rfl

/-! ### setTimer -/

@[simp] theorem State.setTimer_pending (n : TimerIx) (x : Timer) : (s.setTimer n x).pending = s.pending := rfl
@[simp] theorem State.setTimer_inReset (n : TimerIx) (x : Timer) : (s.setTimer n x).inReset = s.inReset := rfl
@[simp] theorem State.setTimer_tables (n : TimerIx) (x : Timer) : (s.setTimer n x).tables = s.tables := rfl
@[simp] theorem State.setTimer_cars (n : TimerIx) (x : Timer) : (s.setTimer n x).cars = s.cars := rfl
@[simp] theorem State.setTimer_lanterns (n : TimerIx) (x : Timer) : (s.setTimer n x).lanterns = s.lanterns := rfl
@[simp] theorem State.setTimer_queues (n : TimerIx) (x : Timer) : (s.setTimer n x).queues = s.queues := rfl
@[simp] theorem State.setTimer_active (n : TimerIx) (x : Timer) : (s.setTimer n x).active = s.active := rfl
@[simp] theorem State.setTimer_baseCount (n : TimerIx) (x : Timer) : (s.setTimer n x).baseCount = s.baseCount := rfl
@[simp] theorem State.setTimer_contents (n : TimerIx) (x : Timer) : (s.setTimer n x).contents = s.contents := rfl
@[simp] theorem State.setTimer_health (n : TimerIx) (x : Timer) : (s.setTimer n x).health = s.health := rfl
@[simp] theorem State.setTimer_links (n : TimerIx) (x : Timer) : (s.setTimer n x).links = s.links := rfl
@[simp] theorem State.setTimer_exercise (n : TimerIx) (x : Timer) : (s.setTimer n x).exercise = s.exercise := rfl
@[simp] theorem State.setTimer_loss (n : TimerIx) (x : Timer) : (s.setTimer n x).loss = s.loss := rfl
@[simp] theorem State.setTimer_rx (n : TimerIx) (x : Timer) : (s.setTimer n x).rx = s.rx := rfl
@[simp] theorem State.setTimer_cport (n : TimerIx) (x : Timer) : (s.setTimer n x).cport = s.cport := rfl
@[simp] theorem State.setTimer_up (n : TimerIx) (x : Timer) : (s.setTimer n x).up = s.up := rfl
@[simp] theorem State.setTimer_mgmt (n : TimerIx) (x : Timer) : (s.setTimer n x).mgmt = s.mgmt := rfl
@[simp] theorem State.setTimer_draws (n : TimerIx) (x : Timer) : (s.setTimer n x).draws = s.draws := rfl
theorem State.setTimer_timer (n : TimerIx) (x : Timer) (n' : TimerIx) : (s.setTimer n x).timer n' = if n = n' then x else s.timer n' := by
  simp [State.setTimer, State.timer, Vector.getElem_set, Fin.ext_iff]
@[simp] theorem State.setTimer_timer_self (n : TimerIx) (x : Timer) : (s.setTimer n x).timer n = x := by simp [State.setTimer_timer]
theorem State.setTimer_timer_ne (n : TimerIx) (x : Timer) (n' : TimerIx) (h : n ≠ n') : (s.setTimer n x).timer n' = s.timer n' := by
  simp [State.setTimer_timer, h]

/-! ### setContent -/

@[simp] theorem State.setContent_pending (p : PanelIx) (x : ContentRec) : (s.setContent p x).pending = s.pending := rfl
@[simp] theorem State.setContent_inReset (p : PanelIx) (x : ContentRec) : (s.setContent p x).inReset = s.inReset := rfl
@[simp] theorem State.setContent_tables (p : PanelIx) (x : ContentRec) : (s.setContent p x).tables = s.tables := rfl
@[simp] theorem State.setContent_cars (p : PanelIx) (x : ContentRec) : (s.setContent p x).cars = s.cars := rfl
@[simp] theorem State.setContent_lanterns (p : PanelIx) (x : ContentRec) : (s.setContent p x).lanterns = s.lanterns := rfl
@[simp] theorem State.setContent_queues (p : PanelIx) (x : ContentRec) : (s.setContent p x).queues = s.queues := rfl
@[simp] theorem State.setContent_active (p : PanelIx) (x : ContentRec) : (s.setContent p x).active = s.active := rfl
@[simp] theorem State.setContent_baseCount (p : PanelIx) (x : ContentRec) : (s.setContent p x).baseCount = s.baseCount := rfl
@[simp] theorem State.setContent_timers (p : PanelIx) (x : ContentRec) : (s.setContent p x).timers = s.timers := rfl
@[simp] theorem State.setContent_health (p : PanelIx) (x : ContentRec) : (s.setContent p x).health = s.health := rfl
@[simp] theorem State.setContent_links (p : PanelIx) (x : ContentRec) : (s.setContent p x).links = s.links := rfl
@[simp] theorem State.setContent_exercise (p : PanelIx) (x : ContentRec) : (s.setContent p x).exercise = s.exercise := rfl
@[simp] theorem State.setContent_loss (p : PanelIx) (x : ContentRec) : (s.setContent p x).loss = s.loss := rfl
@[simp] theorem State.setContent_rx (p : PanelIx) (x : ContentRec) : (s.setContent p x).rx = s.rx := rfl
@[simp] theorem State.setContent_cport (p : PanelIx) (x : ContentRec) : (s.setContent p x).cport = s.cport := rfl
@[simp] theorem State.setContent_up (p : PanelIx) (x : ContentRec) : (s.setContent p x).up = s.up := rfl
@[simp] theorem State.setContent_mgmt (p : PanelIx) (x : ContentRec) : (s.setContent p x).mgmt = s.mgmt := rfl
@[simp] theorem State.setContent_draws (p : PanelIx) (x : ContentRec) : (s.setContent p x).draws = s.draws := rfl
theorem State.setContent_content (p : PanelIx) (x : ContentRec) (p' : PanelIx) : (s.setContent p x).content p' = if p = p' then x else s.content p' := by
  simp [State.setContent, State.content, Vector.getElem_set, Fin.ext_iff]
@[simp] theorem State.setContent_content_self (p : PanelIx) (x : ContentRec) : (s.setContent p x).content p = x := by simp [State.setContent_content]
theorem State.setContent_content_ne (p : PanelIx) (x : ContentRec) (p' : PanelIx) (h : p ≠ p') : (s.setContent p x).content p' = s.content p' := by
  simp [State.setContent_content, h]

/-! ### setHealth -/

@[simp] theorem State.setHealth_pending (p : PanelIx) (x : Health) : (s.setHealth p x).pending = s.pending := rfl
@[simp] theorem State.setHealth_inReset (p : PanelIx) (x : Health) : (s.setHealth p x).inReset = s.inReset := rfl
@[simp] theorem State.setHealth_tables (p : PanelIx) (x : Health) : (s.setHealth p x).tables = s.tables := rfl
@[simp] theorem State.setHealth_cars (p : PanelIx) (x : Health) : (s.setHealth p x).cars = s.cars := rfl
@[simp] theorem State.setHealth_lanterns (p : PanelIx) (x : Health) : (s.setHealth p x).lanterns = s.lanterns := rfl
@[simp] theorem State.setHealth_queues (p : PanelIx) (x : Health) : (s.setHealth p x).queues = s.queues := rfl
@[simp] theorem State.setHealth_active (p : PanelIx) (x : Health) : (s.setHealth p x).active = s.active := rfl
@[simp] theorem State.setHealth_baseCount (p : PanelIx) (x : Health) : (s.setHealth p x).baseCount = s.baseCount := rfl
@[simp] theorem State.setHealth_timers (p : PanelIx) (x : Health) : (s.setHealth p x).timers = s.timers := rfl
@[simp] theorem State.setHealth_contents (p : PanelIx) (x : Health) : (s.setHealth p x).contents = s.contents := rfl
@[simp] theorem State.setHealth_links (p : PanelIx) (x : Health) : (s.setHealth p x).links = s.links := rfl
@[simp] theorem State.setHealth_exercise (p : PanelIx) (x : Health) : (s.setHealth p x).exercise = s.exercise := rfl
@[simp] theorem State.setHealth_loss (p : PanelIx) (x : Health) : (s.setHealth p x).loss = s.loss := rfl
@[simp] theorem State.setHealth_rx (p : PanelIx) (x : Health) : (s.setHealth p x).rx = s.rx := rfl
@[simp] theorem State.setHealth_cport (p : PanelIx) (x : Health) : (s.setHealth p x).cport = s.cport := rfl
@[simp] theorem State.setHealth_up (p : PanelIx) (x : Health) : (s.setHealth p x).up = s.up := rfl
@[simp] theorem State.setHealth_mgmt (p : PanelIx) (x : Health) : (s.setHealth p x).mgmt = s.mgmt := rfl
@[simp] theorem State.setHealth_draws (p : PanelIx) (x : Health) : (s.setHealth p x).draws = s.draws := rfl
theorem State.setHealth_healthOf (p : PanelIx) (x : Health) (p' : PanelIx) : (s.setHealth p x).healthOf p' = if p = p' then x else s.healthOf p' := by
  simp [State.setHealth, State.healthOf, Vector.getElem_set, Fin.ext_iff]
@[simp] theorem State.setHealth_healthOf_self (p : PanelIx) (x : Health) : (s.setHealth p x).healthOf p = x := by simp [State.setHealth_healthOf]
theorem State.setHealth_healthOf_ne (p : PanelIx) (x : Health) (p' : PanelIx) (h : p ≠ p') : (s.setHealth p x).healthOf p' = s.healthOf p' := by
  simp [State.setHealth_healthOf, h]

/-! ### setLink -/

@[simp] theorem State.setLink_pending (l : LinkIx) (x : Link) : (s.setLink l x).pending = s.pending := rfl
@[simp] theorem State.setLink_inReset (l : LinkIx) (x : Link) : (s.setLink l x).inReset = s.inReset := rfl
@[simp] theorem State.setLink_tables (l : LinkIx) (x : Link) : (s.setLink l x).tables = s.tables := rfl
@[simp] theorem State.setLink_cars (l : LinkIx) (x : Link) : (s.setLink l x).cars = s.cars := rfl
@[simp] theorem State.setLink_lanterns (l : LinkIx) (x : Link) : (s.setLink l x).lanterns = s.lanterns := rfl
@[simp] theorem State.setLink_queues (l : LinkIx) (x : Link) : (s.setLink l x).queues = s.queues := rfl
@[simp] theorem State.setLink_active (l : LinkIx) (x : Link) : (s.setLink l x).active = s.active := rfl
@[simp] theorem State.setLink_baseCount (l : LinkIx) (x : Link) : (s.setLink l x).baseCount = s.baseCount := rfl
@[simp] theorem State.setLink_timers (l : LinkIx) (x : Link) : (s.setLink l x).timers = s.timers := rfl
@[simp] theorem State.setLink_contents (l : LinkIx) (x : Link) : (s.setLink l x).contents = s.contents := rfl
@[simp] theorem State.setLink_health (l : LinkIx) (x : Link) : (s.setLink l x).health = s.health := rfl
@[simp] theorem State.setLink_exercise (l : LinkIx) (x : Link) : (s.setLink l x).exercise = s.exercise := rfl
@[simp] theorem State.setLink_loss (l : LinkIx) (x : Link) : (s.setLink l x).loss = s.loss := rfl
@[simp] theorem State.setLink_rx (l : LinkIx) (x : Link) : (s.setLink l x).rx = s.rx := rfl
@[simp] theorem State.setLink_cport (l : LinkIx) (x : Link) : (s.setLink l x).cport = s.cport := rfl
@[simp] theorem State.setLink_up (l : LinkIx) (x : Link) : (s.setLink l x).up = s.up := rfl
@[simp] theorem State.setLink_mgmt (l : LinkIx) (x : Link) : (s.setLink l x).mgmt = s.mgmt := rfl
@[simp] theorem State.setLink_draws (l : LinkIx) (x : Link) : (s.setLink l x).draws = s.draws := rfl
theorem State.setLink_link (l : LinkIx) (x : Link) (l' : LinkIx) : (s.setLink l x).link l' = if l = l' then x else s.link l' := by
  simp [State.setLink, State.link, Vector.getElem_set, Fin.ext_iff]
@[simp] theorem State.setLink_link_self (l : LinkIx) (x : Link) : (s.setLink l x).link l = x := by simp [State.setLink_link]
theorem State.setLink_link_ne (l : LinkIx) (x : Link) (l' : LinkIx) (h : l ≠ l') : (s.setLink l x).link l' = s.link l' := by
  simp [State.setLink_link, h]

/-! ### setExercise -/

@[simp] theorem State.setExercise_pending (x : Exercise) : (s.setExercise x).pending = s.pending := rfl
@[simp] theorem State.setExercise_inReset (x : Exercise) : (s.setExercise x).inReset = s.inReset := rfl
@[simp] theorem State.setExercise_tables (x : Exercise) : (s.setExercise x).tables = s.tables := rfl
@[simp] theorem State.setExercise_cars (x : Exercise) : (s.setExercise x).cars = s.cars := rfl
@[simp] theorem State.setExercise_lanterns (x : Exercise) : (s.setExercise x).lanterns = s.lanterns := rfl
@[simp] theorem State.setExercise_queues (x : Exercise) : (s.setExercise x).queues = s.queues := rfl
@[simp] theorem State.setExercise_active (x : Exercise) : (s.setExercise x).active = s.active := rfl
@[simp] theorem State.setExercise_baseCount (x : Exercise) : (s.setExercise x).baseCount = s.baseCount := rfl
@[simp] theorem State.setExercise_timers (x : Exercise) : (s.setExercise x).timers = s.timers := rfl
@[simp] theorem State.setExercise_contents (x : Exercise) : (s.setExercise x).contents = s.contents := rfl
@[simp] theorem State.setExercise_health (x : Exercise) : (s.setExercise x).health = s.health := rfl
@[simp] theorem State.setExercise_links (x : Exercise) : (s.setExercise x).links = s.links := rfl
@[simp] theorem State.setExercise_exercise (x : Exercise) : (s.setExercise x).exercise = x := rfl
@[simp] theorem State.setExercise_loss (x : Exercise) : (s.setExercise x).loss = s.loss := rfl
@[simp] theorem State.setExercise_rx (x : Exercise) : (s.setExercise x).rx = s.rx := rfl
@[simp] theorem State.setExercise_cport (x : Exercise) : (s.setExercise x).cport = s.cport := rfl
@[simp] theorem State.setExercise_up (x : Exercise) : (s.setExercise x).up = s.up := rfl
@[simp] theorem State.setExercise_mgmt (x : Exercise) : (s.setExercise x).mgmt = s.mgmt := rfl
@[simp] theorem State.setExercise_draws (x : Exercise) : (s.setExercise x).draws = s.draws := rfl

/-! ### setLoss -/

@[simp] theorem State.setLoss_pending (x : Loss) : (s.setLoss x).pending = s.pending := rfl
@[simp] theorem State.setLoss_inReset (x : Loss) : (s.setLoss x).inReset = s.inReset := rfl
@[simp] theorem State.setLoss_tables (x : Loss) : (s.setLoss x).tables = s.tables := rfl
@[simp] theorem State.setLoss_cars (x : Loss) : (s.setLoss x).cars = s.cars := rfl
@[simp] theorem State.setLoss_lanterns (x : Loss) : (s.setLoss x).lanterns = s.lanterns := rfl
@[simp] theorem State.setLoss_queues (x : Loss) : (s.setLoss x).queues = s.queues := rfl
@[simp] theorem State.setLoss_active (x : Loss) : (s.setLoss x).active = s.active := rfl
@[simp] theorem State.setLoss_baseCount (x : Loss) : (s.setLoss x).baseCount = s.baseCount := rfl
@[simp] theorem State.setLoss_timers (x : Loss) : (s.setLoss x).timers = s.timers := rfl
@[simp] theorem State.setLoss_contents (x : Loss) : (s.setLoss x).contents = s.contents := rfl
@[simp] theorem State.setLoss_health (x : Loss) : (s.setLoss x).health = s.health := rfl
@[simp] theorem State.setLoss_links (x : Loss) : (s.setLoss x).links = s.links := rfl
@[simp] theorem State.setLoss_exercise (x : Loss) : (s.setLoss x).exercise = s.exercise := rfl
@[simp] theorem State.setLoss_loss (x : Loss) : (s.setLoss x).loss = x := rfl
@[simp] theorem State.setLoss_rx (x : Loss) : (s.setLoss x).rx = s.rx := rfl
@[simp] theorem State.setLoss_cport (x : Loss) : (s.setLoss x).cport = s.cport := rfl
@[simp] theorem State.setLoss_up (x : Loss) : (s.setLoss x).up = s.up := rfl
@[simp] theorem State.setLoss_mgmt (x : Loss) : (s.setLoss x).mgmt = s.mgmt := rfl
@[simp] theorem State.setLoss_draws (x : Loss) : (s.setLoss x).draws = s.draws := rfl

/-! ### setRx -/

@[simp] theorem State.setRx_pending (x : URx) : (s.setRx x).pending = s.pending := rfl
@[simp] theorem State.setRx_inReset (x : URx) : (s.setRx x).inReset = s.inReset := rfl
@[simp] theorem State.setRx_tables (x : URx) : (s.setRx x).tables = s.tables := rfl
@[simp] theorem State.setRx_cars (x : URx) : (s.setRx x).cars = s.cars := rfl
@[simp] theorem State.setRx_lanterns (x : URx) : (s.setRx x).lanterns = s.lanterns := rfl
@[simp] theorem State.setRx_queues (x : URx) : (s.setRx x).queues = s.queues := rfl
@[simp] theorem State.setRx_active (x : URx) : (s.setRx x).active = s.active := rfl
@[simp] theorem State.setRx_baseCount (x : URx) : (s.setRx x).baseCount = s.baseCount := rfl
@[simp] theorem State.setRx_timers (x : URx) : (s.setRx x).timers = s.timers := rfl
@[simp] theorem State.setRx_contents (x : URx) : (s.setRx x).contents = s.contents := rfl
@[simp] theorem State.setRx_health (x : URx) : (s.setRx x).health = s.health := rfl
@[simp] theorem State.setRx_links (x : URx) : (s.setRx x).links = s.links := rfl
@[simp] theorem State.setRx_exercise (x : URx) : (s.setRx x).exercise = s.exercise := rfl
@[simp] theorem State.setRx_loss (x : URx) : (s.setRx x).loss = s.loss := rfl
@[simp] theorem State.setRx_rx (x : URx) : (s.setRx x).rx = x := rfl
@[simp] theorem State.setRx_cport (x : URx) : (s.setRx x).cport = s.cport := rfl
@[simp] theorem State.setRx_up (x : URx) : (s.setRx x).up = s.up := rfl
@[simp] theorem State.setRx_mgmt (x : URx) : (s.setRx x).mgmt = s.mgmt := rfl
@[simp] theorem State.setRx_draws (x : URx) : (s.setRx x).draws = s.draws := rfl

/-! ### setCPort -/

@[simp] theorem State.setCPort_pending (x : CPort) : (s.setCPort x).pending = s.pending := rfl
@[simp] theorem State.setCPort_inReset (x : CPort) : (s.setCPort x).inReset = s.inReset := rfl
@[simp] theorem State.setCPort_tables (x : CPort) : (s.setCPort x).tables = s.tables := rfl
@[simp] theorem State.setCPort_cars (x : CPort) : (s.setCPort x).cars = s.cars := rfl
@[simp] theorem State.setCPort_lanterns (x : CPort) : (s.setCPort x).lanterns = s.lanterns := rfl
@[simp] theorem State.setCPort_queues (x : CPort) : (s.setCPort x).queues = s.queues := rfl
@[simp] theorem State.setCPort_active (x : CPort) : (s.setCPort x).active = s.active := rfl
@[simp] theorem State.setCPort_baseCount (x : CPort) : (s.setCPort x).baseCount = s.baseCount := rfl
@[simp] theorem State.setCPort_timers (x : CPort) : (s.setCPort x).timers = s.timers := rfl
@[simp] theorem State.setCPort_contents (x : CPort) : (s.setCPort x).contents = s.contents := rfl
@[simp] theorem State.setCPort_health (x : CPort) : (s.setCPort x).health = s.health := rfl
@[simp] theorem State.setCPort_links (x : CPort) : (s.setCPort x).links = s.links := rfl
@[simp] theorem State.setCPort_exercise (x : CPort) : (s.setCPort x).exercise = s.exercise := rfl
@[simp] theorem State.setCPort_loss (x : CPort) : (s.setCPort x).loss = s.loss := rfl
@[simp] theorem State.setCPort_rx (x : CPort) : (s.setCPort x).rx = s.rx := rfl
@[simp] theorem State.setCPort_cport (x : CPort) : (s.setCPort x).cport = x := rfl
@[simp] theorem State.setCPort_up (x : CPort) : (s.setCPort x).up = s.up := rfl
@[simp] theorem State.setCPort_mgmt (x : CPort) : (s.setCPort x).mgmt = s.mgmt := rfl
@[simp] theorem State.setCPort_draws (x : CPort) : (s.setCPort x).draws = s.draws := rfl

/-! ### setUp -/

@[simp] theorem State.setUp_pending (x : Up) : (s.setUp x).pending = s.pending := rfl
@[simp] theorem State.setUp_inReset (x : Up) : (s.setUp x).inReset = s.inReset := rfl
@[simp] theorem State.setUp_tables (x : Up) : (s.setUp x).tables = s.tables := rfl
@[simp] theorem State.setUp_cars (x : Up) : (s.setUp x).cars = s.cars := rfl
@[simp] theorem State.setUp_lanterns (x : Up) : (s.setUp x).lanterns = s.lanterns := rfl
@[simp] theorem State.setUp_queues (x : Up) : (s.setUp x).queues = s.queues := rfl
@[simp] theorem State.setUp_active (x : Up) : (s.setUp x).active = s.active := rfl
@[simp] theorem State.setUp_baseCount (x : Up) : (s.setUp x).baseCount = s.baseCount := rfl
@[simp] theorem State.setUp_timers (x : Up) : (s.setUp x).timers = s.timers := rfl
@[simp] theorem State.setUp_contents (x : Up) : (s.setUp x).contents = s.contents := rfl
@[simp] theorem State.setUp_health (x : Up) : (s.setUp x).health = s.health := rfl
@[simp] theorem State.setUp_links (x : Up) : (s.setUp x).links = s.links := rfl
@[simp] theorem State.setUp_exercise (x : Up) : (s.setUp x).exercise = s.exercise := rfl
@[simp] theorem State.setUp_loss (x : Up) : (s.setUp x).loss = s.loss := rfl
@[simp] theorem State.setUp_rx (x : Up) : (s.setUp x).rx = s.rx := rfl
@[simp] theorem State.setUp_cport (x : Up) : (s.setUp x).cport = s.cport := rfl
@[simp] theorem State.setUp_up (x : Up) : (s.setUp x).up = x := rfl
@[simp] theorem State.setUp_mgmt (x : Up) : (s.setUp x).mgmt = s.mgmt := rfl
@[simp] theorem State.setUp_draws (x : Up) : (s.setUp x).draws = s.draws := rfl

/-! ### setMgmt -/

@[simp] theorem State.setMgmt_pending (x : Mgmt) : (s.setMgmt x).pending = s.pending := rfl
@[simp] theorem State.setMgmt_inReset (x : Mgmt) : (s.setMgmt x).inReset = s.inReset := rfl
@[simp] theorem State.setMgmt_tables (x : Mgmt) : (s.setMgmt x).tables = s.tables := rfl
@[simp] theorem State.setMgmt_cars (x : Mgmt) : (s.setMgmt x).cars = s.cars := rfl
@[simp] theorem State.setMgmt_lanterns (x : Mgmt) : (s.setMgmt x).lanterns = s.lanterns := rfl
@[simp] theorem State.setMgmt_queues (x : Mgmt) : (s.setMgmt x).queues = s.queues := rfl
@[simp] theorem State.setMgmt_active (x : Mgmt) : (s.setMgmt x).active = s.active := rfl
@[simp] theorem State.setMgmt_baseCount (x : Mgmt) : (s.setMgmt x).baseCount = s.baseCount := rfl
@[simp] theorem State.setMgmt_timers (x : Mgmt) : (s.setMgmt x).timers = s.timers := rfl
@[simp] theorem State.setMgmt_contents (x : Mgmt) : (s.setMgmt x).contents = s.contents := rfl
@[simp] theorem State.setMgmt_health (x : Mgmt) : (s.setMgmt x).health = s.health := rfl
@[simp] theorem State.setMgmt_links (x : Mgmt) : (s.setMgmt x).links = s.links := rfl
@[simp] theorem State.setMgmt_exercise (x : Mgmt) : (s.setMgmt x).exercise = s.exercise := rfl
@[simp] theorem State.setMgmt_loss (x : Mgmt) : (s.setMgmt x).loss = s.loss := rfl
@[simp] theorem State.setMgmt_rx (x : Mgmt) : (s.setMgmt x).rx = s.rx := rfl
@[simp] theorem State.setMgmt_cport (x : Mgmt) : (s.setMgmt x).cport = s.cport := rfl
@[simp] theorem State.setMgmt_up (x : Mgmt) : (s.setMgmt x).up = s.up := rfl
@[simp] theorem State.setMgmt_mgmt (x : Mgmt) : (s.setMgmt x).mgmt = x := rfl
@[simp] theorem State.setMgmt_draws (x : Mgmt) : (s.setMgmt x).draws = s.draws := rfl

/-! ### setDraws -/

@[simp] theorem State.setDraws_pending (x : Nat) : (s.setDraws x).pending = s.pending := rfl
@[simp] theorem State.setDraws_inReset (x : Nat) : (s.setDraws x).inReset = s.inReset := rfl
@[simp] theorem State.setDraws_tables (x : Nat) : (s.setDraws x).tables = s.tables := rfl
@[simp] theorem State.setDraws_cars (x : Nat) : (s.setDraws x).cars = s.cars := rfl
@[simp] theorem State.setDraws_lanterns (x : Nat) : (s.setDraws x).lanterns = s.lanterns := rfl
@[simp] theorem State.setDraws_queues (x : Nat) : (s.setDraws x).queues = s.queues := rfl
@[simp] theorem State.setDraws_active (x : Nat) : (s.setDraws x).active = s.active := rfl
@[simp] theorem State.setDraws_baseCount (x : Nat) : (s.setDraws x).baseCount = s.baseCount := rfl
@[simp] theorem State.setDraws_timers (x : Nat) : (s.setDraws x).timers = s.timers := rfl
@[simp] theorem State.setDraws_contents (x : Nat) : (s.setDraws x).contents = s.contents := rfl
@[simp] theorem State.setDraws_health (x : Nat) : (s.setDraws x).health = s.health := rfl
@[simp] theorem State.setDraws_links (x : Nat) : (s.setDraws x).links = s.links := rfl
@[simp] theorem State.setDraws_exercise (x : Nat) : (s.setDraws x).exercise = s.exercise := rfl
@[simp] theorem State.setDraws_loss (x : Nat) : (s.setDraws x).loss = s.loss := rfl
@[simp] theorem State.setDraws_rx (x : Nat) : (s.setDraws x).rx = s.rx := rfl
@[simp] theorem State.setDraws_cport (x : Nat) : (s.setDraws x).cport = s.cport := rfl
@[simp] theorem State.setDraws_up (x : Nat) : (s.setDraws x).up = s.up := rfl
@[simp] theorem State.setDraws_mgmt (x : Nat) : (s.setDraws x).mgmt = s.mgmt := rfl
@[simp] theorem State.setDraws_draws (x : Nat) : (s.setDraws x).draws = x := rfl

/-! ### Named reads through the updates of other fields -/

@[simp] theorem State.setInReset_profile (x : Bool) : (s.setInReset x).profile = s.profile := rfl
@[simp] theorem State.setInReset_floorEntry (x : Bool) : (s.setInReset x).floorEntry = s.floorEntry := rfl
@[simp] theorem State.setInReset_carEntry (x : Bool) : (s.setInReset x).carEntry = s.carEntry := rfl
@[simp] theorem State.setInReset_serves (x : Bool) : (s.setInReset x).serves = s.serves := rfl
@[simp] theorem State.setInReset_kioskEntry (x : Bool) : (s.setInReset x).kioskEntry = s.kioskEntry := rfl
@[simp] theorem State.setInReset_panelEntry (x : Bool) : (s.setInReset x).panelEntry = s.panelEntry := rfl
@[simp] theorem State.setInReset_text (x : Bool) : (s.setInReset x).text = s.text := rfl
@[simp] theorem State.setInReset_noticeEntry (x : Bool) : (s.setInReset x).noticeEntry = s.noticeEntry := rfl
@[simp] theorem State.setInReset_cadenceEntry (x : Bool) : (s.setInReset x).cadenceEntry = s.cadenceEntry := rfl
@[simp] theorem State.setInReset_car (x : Bool) : (s.setInReset x).car = s.car := rfl
@[simp] theorem State.setInReset_lantern (x : Bool) : (s.setInReset x).lantern = s.lantern := rfl
@[simp] theorem State.setInReset_queue (x : Bool) : (s.setInReset x).queue = s.queue := rfl
@[simp] theorem State.setInReset_isActive (x : Bool) : (s.setInReset x).isActive = s.isActive := rfl
@[simp] theorem State.setInReset_timer (x : Bool) : (s.setInReset x).timer = s.timer := rfl
@[simp] theorem State.setInReset_content (x : Bool) : (s.setInReset x).content = s.content := rfl
@[simp] theorem State.setInReset_healthOf (x : Bool) : (s.setInReset x).healthOf = s.healthOf := rfl
@[simp] theorem State.setInReset_link (x : Bool) : (s.setInReset x).link = s.link := rfl
@[simp] theorem State.setTables_car (x : Tables) : (s.setTables x).car = s.car := rfl
@[simp] theorem State.setTables_lantern (x : Tables) : (s.setTables x).lantern = s.lantern := rfl
@[simp] theorem State.setTables_queue (x : Tables) : (s.setTables x).queue = s.queue := rfl
@[simp] theorem State.setTables_isActive (x : Tables) : (s.setTables x).isActive = s.isActive := rfl
@[simp] theorem State.setTables_timer (x : Tables) : (s.setTables x).timer = s.timer := rfl
@[simp] theorem State.setTables_content (x : Tables) : (s.setTables x).content = s.content := rfl
@[simp] theorem State.setTables_healthOf (x : Tables) : (s.setTables x).healthOf = s.healthOf := rfl
@[simp] theorem State.setTables_link (x : Tables) : (s.setTables x).link = s.link := rfl
@[simp] theorem State.setCar_profile (c : CarIx) (x : CarRec) : (s.setCar c x).profile = s.profile := rfl
@[simp] theorem State.setCar_floorEntry (c : CarIx) (x : CarRec) : (s.setCar c x).floorEntry = s.floorEntry := rfl
@[simp] theorem State.setCar_carEntry (c : CarIx) (x : CarRec) : (s.setCar c x).carEntry = s.carEntry := rfl
@[simp] theorem State.setCar_serves (c : CarIx) (x : CarRec) : (s.setCar c x).serves = s.serves := rfl
@[simp] theorem State.setCar_kioskEntry (c : CarIx) (x : CarRec) : (s.setCar c x).kioskEntry = s.kioskEntry := rfl
@[simp] theorem State.setCar_panelEntry (c : CarIx) (x : CarRec) : (s.setCar c x).panelEntry = s.panelEntry := rfl
@[simp] theorem State.setCar_text (c : CarIx) (x : CarRec) : (s.setCar c x).text = s.text := rfl
@[simp] theorem State.setCar_noticeEntry (c : CarIx) (x : CarRec) : (s.setCar c x).noticeEntry = s.noticeEntry := rfl
@[simp] theorem State.setCar_cadenceEntry (c : CarIx) (x : CarRec) : (s.setCar c x).cadenceEntry = s.cadenceEntry := rfl
@[simp] theorem State.setCar_lantern (c : CarIx) (x : CarRec) : (s.setCar c x).lantern = s.lantern := rfl
@[simp] theorem State.setCar_queue (c : CarIx) (x : CarRec) : (s.setCar c x).queue = s.queue := rfl
@[simp] theorem State.setCar_isActive (c : CarIx) (x : CarRec) : (s.setCar c x).isActive = s.isActive := rfl
@[simp] theorem State.setCar_timer (c : CarIx) (x : CarRec) : (s.setCar c x).timer = s.timer := rfl
@[simp] theorem State.setCar_content (c : CarIx) (x : CarRec) : (s.setCar c x).content = s.content := rfl
@[simp] theorem State.setCar_healthOf (c : CarIx) (x : CarRec) : (s.setCar c x).healthOf = s.healthOf := rfl
@[simp] theorem State.setCar_link (c : CarIx) (x : CarRec) : (s.setCar c x).link = s.link := rfl
@[simp] theorem State.setLantern_profile (p : PanelIx) (x : Option Lantern) : (s.setLantern p x).profile = s.profile := rfl
@[simp] theorem State.setLantern_floorEntry (p : PanelIx) (x : Option Lantern) : (s.setLantern p x).floorEntry = s.floorEntry := rfl
@[simp] theorem State.setLantern_carEntry (p : PanelIx) (x : Option Lantern) : (s.setLantern p x).carEntry = s.carEntry := rfl
@[simp] theorem State.setLantern_serves (p : PanelIx) (x : Option Lantern) : (s.setLantern p x).serves = s.serves := rfl
@[simp] theorem State.setLantern_kioskEntry (p : PanelIx) (x : Option Lantern) : (s.setLantern p x).kioskEntry = s.kioskEntry := rfl
@[simp] theorem State.setLantern_panelEntry (p : PanelIx) (x : Option Lantern) : (s.setLantern p x).panelEntry = s.panelEntry := rfl
@[simp] theorem State.setLantern_text (p : PanelIx) (x : Option Lantern) : (s.setLantern p x).text = s.text := rfl
@[simp] theorem State.setLantern_noticeEntry (p : PanelIx) (x : Option Lantern) : (s.setLantern p x).noticeEntry = s.noticeEntry := rfl
@[simp] theorem State.setLantern_cadenceEntry (p : PanelIx) (x : Option Lantern) : (s.setLantern p x).cadenceEntry = s.cadenceEntry := rfl
@[simp] theorem State.setLantern_car (p : PanelIx) (x : Option Lantern) : (s.setLantern p x).car = s.car := rfl
@[simp] theorem State.setLantern_queue (p : PanelIx) (x : Option Lantern) : (s.setLantern p x).queue = s.queue := rfl
@[simp] theorem State.setLantern_isActive (p : PanelIx) (x : Option Lantern) : (s.setLantern p x).isActive = s.isActive := rfl
@[simp] theorem State.setLantern_timer (p : PanelIx) (x : Option Lantern) : (s.setLantern p x).timer = s.timer := rfl
@[simp] theorem State.setLantern_content (p : PanelIx) (x : Option Lantern) : (s.setLantern p x).content = s.content := rfl
@[simp] theorem State.setLantern_healthOf (p : PanelIx) (x : Option Lantern) : (s.setLantern p x).healthOf = s.healthOf := rfl
@[simp] theorem State.setLantern_link (p : PanelIx) (x : Option Lantern) : (s.setLantern p x).link = s.link := rfl
@[simp] theorem State.setQueue_profile (k : KioskIx) (x : List Prompt) : (s.setQueue k x).profile = s.profile := rfl
@[simp] theorem State.setQueue_floorEntry (k : KioskIx) (x : List Prompt) : (s.setQueue k x).floorEntry = s.floorEntry := rfl
@[simp] theorem State.setQueue_carEntry (k : KioskIx) (x : List Prompt) : (s.setQueue k x).carEntry = s.carEntry := rfl
@[simp] theorem State.setQueue_serves (k : KioskIx) (x : List Prompt) : (s.setQueue k x).serves = s.serves := rfl
@[simp] theorem State.setQueue_kioskEntry (k : KioskIx) (x : List Prompt) : (s.setQueue k x).kioskEntry = s.kioskEntry := rfl
@[simp] theorem State.setQueue_panelEntry (k : KioskIx) (x : List Prompt) : (s.setQueue k x).panelEntry = s.panelEntry := rfl
@[simp] theorem State.setQueue_text (k : KioskIx) (x : List Prompt) : (s.setQueue k x).text = s.text := rfl
@[simp] theorem State.setQueue_noticeEntry (k : KioskIx) (x : List Prompt) : (s.setQueue k x).noticeEntry = s.noticeEntry := rfl
@[simp] theorem State.setQueue_cadenceEntry (k : KioskIx) (x : List Prompt) : (s.setQueue k x).cadenceEntry = s.cadenceEntry := rfl
@[simp] theorem State.setQueue_car (k : KioskIx) (x : List Prompt) : (s.setQueue k x).car = s.car := rfl
@[simp] theorem State.setQueue_lantern (k : KioskIx) (x : List Prompt) : (s.setQueue k x).lantern = s.lantern := rfl
@[simp] theorem State.setQueue_isActive (k : KioskIx) (x : List Prompt) : (s.setQueue k x).isActive = s.isActive := rfl
@[simp] theorem State.setQueue_timer (k : KioskIx) (x : List Prompt) : (s.setQueue k x).timer = s.timer := rfl
@[simp] theorem State.setQueue_content (k : KioskIx) (x : List Prompt) : (s.setQueue k x).content = s.content := rfl
@[simp] theorem State.setQueue_healthOf (k : KioskIx) (x : List Prompt) : (s.setQueue k x).healthOf = s.healthOf := rfl
@[simp] theorem State.setQueue_link (k : KioskIx) (x : List Prompt) : (s.setQueue k x).link = s.link := rfl
@[simp] theorem State.setActive_profile (n : NoticeIx) (x : Bool) : (s.setActive n x).profile = s.profile := rfl
@[simp] theorem State.setActive_floorEntry (n : NoticeIx) (x : Bool) : (s.setActive n x).floorEntry = s.floorEntry := rfl
@[simp] theorem State.setActive_carEntry (n : NoticeIx) (x : Bool) : (s.setActive n x).carEntry = s.carEntry := rfl
@[simp] theorem State.setActive_serves (n : NoticeIx) (x : Bool) : (s.setActive n x).serves = s.serves := rfl
@[simp] theorem State.setActive_kioskEntry (n : NoticeIx) (x : Bool) : (s.setActive n x).kioskEntry = s.kioskEntry := rfl
@[simp] theorem State.setActive_panelEntry (n : NoticeIx) (x : Bool) : (s.setActive n x).panelEntry = s.panelEntry := rfl
@[simp] theorem State.setActive_text (n : NoticeIx) (x : Bool) : (s.setActive n x).text = s.text := rfl
@[simp] theorem State.setActive_noticeEntry (n : NoticeIx) (x : Bool) : (s.setActive n x).noticeEntry = s.noticeEntry := rfl
@[simp] theorem State.setActive_cadenceEntry (n : NoticeIx) (x : Bool) : (s.setActive n x).cadenceEntry = s.cadenceEntry := rfl
@[simp] theorem State.setActive_car (n : NoticeIx) (x : Bool) : (s.setActive n x).car = s.car := rfl
@[simp] theorem State.setActive_lantern (n : NoticeIx) (x : Bool) : (s.setActive n x).lantern = s.lantern := rfl
@[simp] theorem State.setActive_queue (n : NoticeIx) (x : Bool) : (s.setActive n x).queue = s.queue := rfl
@[simp] theorem State.setActive_timer (n : NoticeIx) (x : Bool) : (s.setActive n x).timer = s.timer := rfl
@[simp] theorem State.setActive_content (n : NoticeIx) (x : Bool) : (s.setActive n x).content = s.content := rfl
@[simp] theorem State.setActive_healthOf (n : NoticeIx) (x : Bool) : (s.setActive n x).healthOf = s.healthOf := rfl
@[simp] theorem State.setActive_link (n : NoticeIx) (x : Bool) : (s.setActive n x).link = s.link := rfl
@[simp] theorem State.setBaseCount_profile (x : Nat) : (s.setBaseCount x).profile = s.profile := rfl
@[simp] theorem State.setBaseCount_floorEntry (x : Nat) : (s.setBaseCount x).floorEntry = s.floorEntry := rfl
@[simp] theorem State.setBaseCount_carEntry (x : Nat) : (s.setBaseCount x).carEntry = s.carEntry := rfl
@[simp] theorem State.setBaseCount_serves (x : Nat) : (s.setBaseCount x).serves = s.serves := rfl
@[simp] theorem State.setBaseCount_kioskEntry (x : Nat) : (s.setBaseCount x).kioskEntry = s.kioskEntry := rfl
@[simp] theorem State.setBaseCount_panelEntry (x : Nat) : (s.setBaseCount x).panelEntry = s.panelEntry := rfl
@[simp] theorem State.setBaseCount_text (x : Nat) : (s.setBaseCount x).text = s.text := rfl
@[simp] theorem State.setBaseCount_noticeEntry (x : Nat) : (s.setBaseCount x).noticeEntry = s.noticeEntry := rfl
@[simp] theorem State.setBaseCount_cadenceEntry (x : Nat) : (s.setBaseCount x).cadenceEntry = s.cadenceEntry := rfl
@[simp] theorem State.setBaseCount_car (x : Nat) : (s.setBaseCount x).car = s.car := rfl
@[simp] theorem State.setBaseCount_lantern (x : Nat) : (s.setBaseCount x).lantern = s.lantern := rfl
@[simp] theorem State.setBaseCount_queue (x : Nat) : (s.setBaseCount x).queue = s.queue := rfl
@[simp] theorem State.setBaseCount_isActive (x : Nat) : (s.setBaseCount x).isActive = s.isActive := rfl
@[simp] theorem State.setBaseCount_timer (x : Nat) : (s.setBaseCount x).timer = s.timer := rfl
@[simp] theorem State.setBaseCount_content (x : Nat) : (s.setBaseCount x).content = s.content := rfl
@[simp] theorem State.setBaseCount_healthOf (x : Nat) : (s.setBaseCount x).healthOf = s.healthOf := rfl
@[simp] theorem State.setBaseCount_link (x : Nat) : (s.setBaseCount x).link = s.link := rfl
@[simp] theorem State.setTimer_profile (n : TimerIx) (x : Timer) : (s.setTimer n x).profile = s.profile := rfl
@[simp] theorem State.setTimer_floorEntry (n : TimerIx) (x : Timer) : (s.setTimer n x).floorEntry = s.floorEntry := rfl
@[simp] theorem State.setTimer_carEntry (n : TimerIx) (x : Timer) : (s.setTimer n x).carEntry = s.carEntry := rfl
@[simp] theorem State.setTimer_serves (n : TimerIx) (x : Timer) : (s.setTimer n x).serves = s.serves := rfl
@[simp] theorem State.setTimer_kioskEntry (n : TimerIx) (x : Timer) : (s.setTimer n x).kioskEntry = s.kioskEntry := rfl
@[simp] theorem State.setTimer_panelEntry (n : TimerIx) (x : Timer) : (s.setTimer n x).panelEntry = s.panelEntry := rfl
@[simp] theorem State.setTimer_text (n : TimerIx) (x : Timer) : (s.setTimer n x).text = s.text := rfl
@[simp] theorem State.setTimer_noticeEntry (n : TimerIx) (x : Timer) : (s.setTimer n x).noticeEntry = s.noticeEntry := rfl
@[simp] theorem State.setTimer_cadenceEntry (n : TimerIx) (x : Timer) : (s.setTimer n x).cadenceEntry = s.cadenceEntry := rfl
@[simp] theorem State.setTimer_car (n : TimerIx) (x : Timer) : (s.setTimer n x).car = s.car := rfl
@[simp] theorem State.setTimer_lantern (n : TimerIx) (x : Timer) : (s.setTimer n x).lantern = s.lantern := rfl
@[simp] theorem State.setTimer_queue (n : TimerIx) (x : Timer) : (s.setTimer n x).queue = s.queue := rfl
@[simp] theorem State.setTimer_isActive (n : TimerIx) (x : Timer) : (s.setTimer n x).isActive = s.isActive := rfl
@[simp] theorem State.setTimer_content (n : TimerIx) (x : Timer) : (s.setTimer n x).content = s.content := rfl
@[simp] theorem State.setTimer_healthOf (n : TimerIx) (x : Timer) : (s.setTimer n x).healthOf = s.healthOf := rfl
@[simp] theorem State.setTimer_link (n : TimerIx) (x : Timer) : (s.setTimer n x).link = s.link := rfl
@[simp] theorem State.setContent_profile (p : PanelIx) (x : ContentRec) : (s.setContent p x).profile = s.profile := rfl
@[simp] theorem State.setContent_floorEntry (p : PanelIx) (x : ContentRec) : (s.setContent p x).floorEntry = s.floorEntry := rfl
@[simp] theorem State.setContent_carEntry (p : PanelIx) (x : ContentRec) : (s.setContent p x).carEntry = s.carEntry := rfl
@[simp] theorem State.setContent_serves (p : PanelIx) (x : ContentRec) : (s.setContent p x).serves = s.serves := rfl
@[simp] theorem State.setContent_kioskEntry (p : PanelIx) (x : ContentRec) : (s.setContent p x).kioskEntry = s.kioskEntry := rfl
@[simp] theorem State.setContent_panelEntry (p : PanelIx) (x : ContentRec) : (s.setContent p x).panelEntry = s.panelEntry := rfl
@[simp] theorem State.setContent_text (p : PanelIx) (x : ContentRec) : (s.setContent p x).text = s.text := rfl
@[simp] theorem State.setContent_noticeEntry (p : PanelIx) (x : ContentRec) : (s.setContent p x).noticeEntry = s.noticeEntry := rfl
@[simp] theorem State.setContent_cadenceEntry (p : PanelIx) (x : ContentRec) : (s.setContent p x).cadenceEntry = s.cadenceEntry := rfl
@[simp] theorem State.setContent_car (p : PanelIx) (x : ContentRec) : (s.setContent p x).car = s.car := rfl
@[simp] theorem State.setContent_lantern (p : PanelIx) (x : ContentRec) : (s.setContent p x).lantern = s.lantern := rfl
@[simp] theorem State.setContent_queue (p : PanelIx) (x : ContentRec) : (s.setContent p x).queue = s.queue := rfl
@[simp] theorem State.setContent_isActive (p : PanelIx) (x : ContentRec) : (s.setContent p x).isActive = s.isActive := rfl
@[simp] theorem State.setContent_timer (p : PanelIx) (x : ContentRec) : (s.setContent p x).timer = s.timer := rfl
@[simp] theorem State.setContent_healthOf (p : PanelIx) (x : ContentRec) : (s.setContent p x).healthOf = s.healthOf := rfl
@[simp] theorem State.setContent_link (p : PanelIx) (x : ContentRec) : (s.setContent p x).link = s.link := rfl
@[simp] theorem State.setHealth_profile (p : PanelIx) (x : Health) : (s.setHealth p x).profile = s.profile := rfl
@[simp] theorem State.setHealth_floorEntry (p : PanelIx) (x : Health) : (s.setHealth p x).floorEntry = s.floorEntry := rfl
@[simp] theorem State.setHealth_carEntry (p : PanelIx) (x : Health) : (s.setHealth p x).carEntry = s.carEntry := rfl
@[simp] theorem State.setHealth_serves (p : PanelIx) (x : Health) : (s.setHealth p x).serves = s.serves := rfl
@[simp] theorem State.setHealth_kioskEntry (p : PanelIx) (x : Health) : (s.setHealth p x).kioskEntry = s.kioskEntry := rfl
@[simp] theorem State.setHealth_panelEntry (p : PanelIx) (x : Health) : (s.setHealth p x).panelEntry = s.panelEntry := rfl
@[simp] theorem State.setHealth_text (p : PanelIx) (x : Health) : (s.setHealth p x).text = s.text := rfl
@[simp] theorem State.setHealth_noticeEntry (p : PanelIx) (x : Health) : (s.setHealth p x).noticeEntry = s.noticeEntry := rfl
@[simp] theorem State.setHealth_cadenceEntry (p : PanelIx) (x : Health) : (s.setHealth p x).cadenceEntry = s.cadenceEntry := rfl
@[simp] theorem State.setHealth_car (p : PanelIx) (x : Health) : (s.setHealth p x).car = s.car := rfl
@[simp] theorem State.setHealth_lantern (p : PanelIx) (x : Health) : (s.setHealth p x).lantern = s.lantern := rfl
@[simp] theorem State.setHealth_queue (p : PanelIx) (x : Health) : (s.setHealth p x).queue = s.queue := rfl
@[simp] theorem State.setHealth_isActive (p : PanelIx) (x : Health) : (s.setHealth p x).isActive = s.isActive := rfl
@[simp] theorem State.setHealth_timer (p : PanelIx) (x : Health) : (s.setHealth p x).timer = s.timer := rfl
@[simp] theorem State.setHealth_content (p : PanelIx) (x : Health) : (s.setHealth p x).content = s.content := rfl
@[simp] theorem State.setHealth_link (p : PanelIx) (x : Health) : (s.setHealth p x).link = s.link := rfl
@[simp] theorem State.setLink_profile (l : LinkIx) (x : Link) : (s.setLink l x).profile = s.profile := rfl
@[simp] theorem State.setLink_floorEntry (l : LinkIx) (x : Link) : (s.setLink l x).floorEntry = s.floorEntry := rfl
@[simp] theorem State.setLink_carEntry (l : LinkIx) (x : Link) : (s.setLink l x).carEntry = s.carEntry := rfl
@[simp] theorem State.setLink_serves (l : LinkIx) (x : Link) : (s.setLink l x).serves = s.serves := rfl
@[simp] theorem State.setLink_kioskEntry (l : LinkIx) (x : Link) : (s.setLink l x).kioskEntry = s.kioskEntry := rfl
@[simp] theorem State.setLink_panelEntry (l : LinkIx) (x : Link) : (s.setLink l x).panelEntry = s.panelEntry := rfl
@[simp] theorem State.setLink_text (l : LinkIx) (x : Link) : (s.setLink l x).text = s.text := rfl
@[simp] theorem State.setLink_noticeEntry (l : LinkIx) (x : Link) : (s.setLink l x).noticeEntry = s.noticeEntry := rfl
@[simp] theorem State.setLink_cadenceEntry (l : LinkIx) (x : Link) : (s.setLink l x).cadenceEntry = s.cadenceEntry := rfl
@[simp] theorem State.setLink_car (l : LinkIx) (x : Link) : (s.setLink l x).car = s.car := rfl
@[simp] theorem State.setLink_lantern (l : LinkIx) (x : Link) : (s.setLink l x).lantern = s.lantern := rfl
@[simp] theorem State.setLink_queue (l : LinkIx) (x : Link) : (s.setLink l x).queue = s.queue := rfl
@[simp] theorem State.setLink_isActive (l : LinkIx) (x : Link) : (s.setLink l x).isActive = s.isActive := rfl
@[simp] theorem State.setLink_timer (l : LinkIx) (x : Link) : (s.setLink l x).timer = s.timer := rfl
@[simp] theorem State.setLink_content (l : LinkIx) (x : Link) : (s.setLink l x).content = s.content := rfl
@[simp] theorem State.setLink_healthOf (l : LinkIx) (x : Link) : (s.setLink l x).healthOf = s.healthOf := rfl
@[simp] theorem State.setExercise_profile (x : Exercise) : (s.setExercise x).profile = s.profile := rfl
@[simp] theorem State.setExercise_floorEntry (x : Exercise) : (s.setExercise x).floorEntry = s.floorEntry := rfl
@[simp] theorem State.setExercise_carEntry (x : Exercise) : (s.setExercise x).carEntry = s.carEntry := rfl
@[simp] theorem State.setExercise_serves (x : Exercise) : (s.setExercise x).serves = s.serves := rfl
@[simp] theorem State.setExercise_kioskEntry (x : Exercise) : (s.setExercise x).kioskEntry = s.kioskEntry := rfl
@[simp] theorem State.setExercise_panelEntry (x : Exercise) : (s.setExercise x).panelEntry = s.panelEntry := rfl
@[simp] theorem State.setExercise_text (x : Exercise) : (s.setExercise x).text = s.text := rfl
@[simp] theorem State.setExercise_noticeEntry (x : Exercise) : (s.setExercise x).noticeEntry = s.noticeEntry := rfl
@[simp] theorem State.setExercise_cadenceEntry (x : Exercise) : (s.setExercise x).cadenceEntry = s.cadenceEntry := rfl
@[simp] theorem State.setExercise_car (x : Exercise) : (s.setExercise x).car = s.car := rfl
@[simp] theorem State.setExercise_lantern (x : Exercise) : (s.setExercise x).lantern = s.lantern := rfl
@[simp] theorem State.setExercise_queue (x : Exercise) : (s.setExercise x).queue = s.queue := rfl
@[simp] theorem State.setExercise_isActive (x : Exercise) : (s.setExercise x).isActive = s.isActive := rfl
@[simp] theorem State.setExercise_timer (x : Exercise) : (s.setExercise x).timer = s.timer := rfl
@[simp] theorem State.setExercise_content (x : Exercise) : (s.setExercise x).content = s.content := rfl
@[simp] theorem State.setExercise_healthOf (x : Exercise) : (s.setExercise x).healthOf = s.healthOf := rfl
@[simp] theorem State.setExercise_link (x : Exercise) : (s.setExercise x).link = s.link := rfl
@[simp] theorem State.setLoss_profile (x : Loss) : (s.setLoss x).profile = s.profile := rfl
@[simp] theorem State.setLoss_floorEntry (x : Loss) : (s.setLoss x).floorEntry = s.floorEntry := rfl
@[simp] theorem State.setLoss_carEntry (x : Loss) : (s.setLoss x).carEntry = s.carEntry := rfl
@[simp] theorem State.setLoss_serves (x : Loss) : (s.setLoss x).serves = s.serves := rfl
@[simp] theorem State.setLoss_kioskEntry (x : Loss) : (s.setLoss x).kioskEntry = s.kioskEntry := rfl
@[simp] theorem State.setLoss_panelEntry (x : Loss) : (s.setLoss x).panelEntry = s.panelEntry := rfl
@[simp] theorem State.setLoss_text (x : Loss) : (s.setLoss x).text = s.text := rfl
@[simp] theorem State.setLoss_noticeEntry (x : Loss) : (s.setLoss x).noticeEntry = s.noticeEntry := rfl
@[simp] theorem State.setLoss_cadenceEntry (x : Loss) : (s.setLoss x).cadenceEntry = s.cadenceEntry := rfl
@[simp] theorem State.setLoss_car (x : Loss) : (s.setLoss x).car = s.car := rfl
@[simp] theorem State.setLoss_lantern (x : Loss) : (s.setLoss x).lantern = s.lantern := rfl
@[simp] theorem State.setLoss_queue (x : Loss) : (s.setLoss x).queue = s.queue := rfl
@[simp] theorem State.setLoss_isActive (x : Loss) : (s.setLoss x).isActive = s.isActive := rfl
@[simp] theorem State.setLoss_timer (x : Loss) : (s.setLoss x).timer = s.timer := rfl
@[simp] theorem State.setLoss_content (x : Loss) : (s.setLoss x).content = s.content := rfl
@[simp] theorem State.setLoss_healthOf (x : Loss) : (s.setLoss x).healthOf = s.healthOf := rfl
@[simp] theorem State.setLoss_link (x : Loss) : (s.setLoss x).link = s.link := rfl
@[simp] theorem State.setRx_profile (x : URx) : (s.setRx x).profile = s.profile := rfl
@[simp] theorem State.setRx_floorEntry (x : URx) : (s.setRx x).floorEntry = s.floorEntry := rfl
@[simp] theorem State.setRx_carEntry (x : URx) : (s.setRx x).carEntry = s.carEntry := rfl
@[simp] theorem State.setRx_serves (x : URx) : (s.setRx x).serves = s.serves := rfl
@[simp] theorem State.setRx_kioskEntry (x : URx) : (s.setRx x).kioskEntry = s.kioskEntry := rfl
@[simp] theorem State.setRx_panelEntry (x : URx) : (s.setRx x).panelEntry = s.panelEntry := rfl
@[simp] theorem State.setRx_text (x : URx) : (s.setRx x).text = s.text := rfl
@[simp] theorem State.setRx_noticeEntry (x : URx) : (s.setRx x).noticeEntry = s.noticeEntry := rfl
@[simp] theorem State.setRx_cadenceEntry (x : URx) : (s.setRx x).cadenceEntry = s.cadenceEntry := rfl
@[simp] theorem State.setRx_car (x : URx) : (s.setRx x).car = s.car := rfl
@[simp] theorem State.setRx_lantern (x : URx) : (s.setRx x).lantern = s.lantern := rfl
@[simp] theorem State.setRx_queue (x : URx) : (s.setRx x).queue = s.queue := rfl
@[simp] theorem State.setRx_isActive (x : URx) : (s.setRx x).isActive = s.isActive := rfl
@[simp] theorem State.setRx_timer (x : URx) : (s.setRx x).timer = s.timer := rfl
@[simp] theorem State.setRx_content (x : URx) : (s.setRx x).content = s.content := rfl
@[simp] theorem State.setRx_healthOf (x : URx) : (s.setRx x).healthOf = s.healthOf := rfl
@[simp] theorem State.setRx_link (x : URx) : (s.setRx x).link = s.link := rfl
@[simp] theorem State.setCPort_profile (x : CPort) : (s.setCPort x).profile = s.profile := rfl
@[simp] theorem State.setCPort_floorEntry (x : CPort) : (s.setCPort x).floorEntry = s.floorEntry := rfl
@[simp] theorem State.setCPort_carEntry (x : CPort) : (s.setCPort x).carEntry = s.carEntry := rfl
@[simp] theorem State.setCPort_serves (x : CPort) : (s.setCPort x).serves = s.serves := rfl
@[simp] theorem State.setCPort_kioskEntry (x : CPort) : (s.setCPort x).kioskEntry = s.kioskEntry := rfl
@[simp] theorem State.setCPort_panelEntry (x : CPort) : (s.setCPort x).panelEntry = s.panelEntry := rfl
@[simp] theorem State.setCPort_text (x : CPort) : (s.setCPort x).text = s.text := rfl
@[simp] theorem State.setCPort_noticeEntry (x : CPort) : (s.setCPort x).noticeEntry = s.noticeEntry := rfl
@[simp] theorem State.setCPort_cadenceEntry (x : CPort) : (s.setCPort x).cadenceEntry = s.cadenceEntry := rfl
@[simp] theorem State.setCPort_car (x : CPort) : (s.setCPort x).car = s.car := rfl
@[simp] theorem State.setCPort_lantern (x : CPort) : (s.setCPort x).lantern = s.lantern := rfl
@[simp] theorem State.setCPort_queue (x : CPort) : (s.setCPort x).queue = s.queue := rfl
@[simp] theorem State.setCPort_isActive (x : CPort) : (s.setCPort x).isActive = s.isActive := rfl
@[simp] theorem State.setCPort_timer (x : CPort) : (s.setCPort x).timer = s.timer := rfl
@[simp] theorem State.setCPort_content (x : CPort) : (s.setCPort x).content = s.content := rfl
@[simp] theorem State.setCPort_healthOf (x : CPort) : (s.setCPort x).healthOf = s.healthOf := rfl
@[simp] theorem State.setCPort_link (x : CPort) : (s.setCPort x).link = s.link := rfl
@[simp] theorem State.setUp_profile (x : Up) : (s.setUp x).profile = s.profile := rfl
@[simp] theorem State.setUp_floorEntry (x : Up) : (s.setUp x).floorEntry = s.floorEntry := rfl
@[simp] theorem State.setUp_carEntry (x : Up) : (s.setUp x).carEntry = s.carEntry := rfl
@[simp] theorem State.setUp_serves (x : Up) : (s.setUp x).serves = s.serves := rfl
@[simp] theorem State.setUp_kioskEntry (x : Up) : (s.setUp x).kioskEntry = s.kioskEntry := rfl
@[simp] theorem State.setUp_panelEntry (x : Up) : (s.setUp x).panelEntry = s.panelEntry := rfl
@[simp] theorem State.setUp_text (x : Up) : (s.setUp x).text = s.text := rfl
@[simp] theorem State.setUp_noticeEntry (x : Up) : (s.setUp x).noticeEntry = s.noticeEntry := rfl
@[simp] theorem State.setUp_cadenceEntry (x : Up) : (s.setUp x).cadenceEntry = s.cadenceEntry := rfl
@[simp] theorem State.setUp_car (x : Up) : (s.setUp x).car = s.car := rfl
@[simp] theorem State.setUp_lantern (x : Up) : (s.setUp x).lantern = s.lantern := rfl
@[simp] theorem State.setUp_queue (x : Up) : (s.setUp x).queue = s.queue := rfl
@[simp] theorem State.setUp_isActive (x : Up) : (s.setUp x).isActive = s.isActive := rfl
@[simp] theorem State.setUp_timer (x : Up) : (s.setUp x).timer = s.timer := rfl
@[simp] theorem State.setUp_content (x : Up) : (s.setUp x).content = s.content := rfl
@[simp] theorem State.setUp_healthOf (x : Up) : (s.setUp x).healthOf = s.healthOf := rfl
@[simp] theorem State.setUp_link (x : Up) : (s.setUp x).link = s.link := rfl
@[simp] theorem State.setMgmt_profile (x : Mgmt) : (s.setMgmt x).profile = s.profile := rfl
@[simp] theorem State.setMgmt_floorEntry (x : Mgmt) : (s.setMgmt x).floorEntry = s.floorEntry := rfl
@[simp] theorem State.setMgmt_carEntry (x : Mgmt) : (s.setMgmt x).carEntry = s.carEntry := rfl
@[simp] theorem State.setMgmt_serves (x : Mgmt) : (s.setMgmt x).serves = s.serves := rfl
@[simp] theorem State.setMgmt_kioskEntry (x : Mgmt) : (s.setMgmt x).kioskEntry = s.kioskEntry := rfl
@[simp] theorem State.setMgmt_panelEntry (x : Mgmt) : (s.setMgmt x).panelEntry = s.panelEntry := rfl
@[simp] theorem State.setMgmt_text (x : Mgmt) : (s.setMgmt x).text = s.text := rfl
@[simp] theorem State.setMgmt_noticeEntry (x : Mgmt) : (s.setMgmt x).noticeEntry = s.noticeEntry := rfl
@[simp] theorem State.setMgmt_cadenceEntry (x : Mgmt) : (s.setMgmt x).cadenceEntry = s.cadenceEntry := rfl
@[simp] theorem State.setMgmt_car (x : Mgmt) : (s.setMgmt x).car = s.car := rfl
@[simp] theorem State.setMgmt_lantern (x : Mgmt) : (s.setMgmt x).lantern = s.lantern := rfl
@[simp] theorem State.setMgmt_queue (x : Mgmt) : (s.setMgmt x).queue = s.queue := rfl
@[simp] theorem State.setMgmt_isActive (x : Mgmt) : (s.setMgmt x).isActive = s.isActive := rfl
@[simp] theorem State.setMgmt_timer (x : Mgmt) : (s.setMgmt x).timer = s.timer := rfl
@[simp] theorem State.setMgmt_content (x : Mgmt) : (s.setMgmt x).content = s.content := rfl
@[simp] theorem State.setMgmt_healthOf (x : Mgmt) : (s.setMgmt x).healthOf = s.healthOf := rfl
@[simp] theorem State.setMgmt_link (x : Mgmt) : (s.setMgmt x).link = s.link := rfl
@[simp] theorem State.setDraws_profile (x : Nat) : (s.setDraws x).profile = s.profile := rfl
@[simp] theorem State.setDraws_floorEntry (x : Nat) : (s.setDraws x).floorEntry = s.floorEntry := rfl
@[simp] theorem State.setDraws_carEntry (x : Nat) : (s.setDraws x).carEntry = s.carEntry := rfl
@[simp] theorem State.setDraws_serves (x : Nat) : (s.setDraws x).serves = s.serves := rfl
@[simp] theorem State.setDraws_kioskEntry (x : Nat) : (s.setDraws x).kioskEntry = s.kioskEntry := rfl
@[simp] theorem State.setDraws_panelEntry (x : Nat) : (s.setDraws x).panelEntry = s.panelEntry := rfl
@[simp] theorem State.setDraws_text (x : Nat) : (s.setDraws x).text = s.text := rfl
@[simp] theorem State.setDraws_noticeEntry (x : Nat) : (s.setDraws x).noticeEntry = s.noticeEntry := rfl
@[simp] theorem State.setDraws_cadenceEntry (x : Nat) : (s.setDraws x).cadenceEntry = s.cadenceEntry := rfl
@[simp] theorem State.setDraws_car (x : Nat) : (s.setDraws x).car = s.car := rfl
@[simp] theorem State.setDraws_lantern (x : Nat) : (s.setDraws x).lantern = s.lantern := rfl
@[simp] theorem State.setDraws_queue (x : Nat) : (s.setDraws x).queue = s.queue := rfl
@[simp] theorem State.setDraws_isActive (x : Nat) : (s.setDraws x).isActive = s.isActive := rfl
@[simp] theorem State.setDraws_timer (x : Nat) : (s.setDraws x).timer = s.timer := rfl
@[simp] theorem State.setDraws_content (x : Nat) : (s.setDraws x).content = s.content := rfl
@[simp] theorem State.setDraws_healthOf (x : Nat) : (s.setDraws x).healthOf = s.healthOf := rfl
@[simp] theorem State.setDraws_link (x : Nat) : (s.setDraws x).link = s.link := rfl

end Sys2Proof.Machine
end

