-- ==== Sys2Proof/Laws/Frame.lean ====
section
/-! SUPPORT. For each shared operation, once and for all, the parts of the state it may change (`<operation>_only`). A proof
about a part that an operation is not listed with cites its lemma and never unfolds it. -/

-- Many short proofs: elaborated one after another, they need no thread each.
set_option Elab.async false

namespace Sys2Proof.Machine

/-! ### Putting frames together -/

theorem OnlyIn.refl (ps : List Part) (s : State) : OnlyIn ps s s := fun q _ => by cases q <;> rfl

theorem OnlyIn.of_eq {ps : List Part} {s t : State} (h : t = s) : OnlyIn ps s t := h ▸ OnlyIn.refl ps s

theorem Part.Same.trans {q : Part} {s t u : State} (h : q.Same s t) (k : q.Same t u) : q.Same s u := by
  cases q <;> exact Eq.trans k h

theorem OnlyIn.trans {ps : List Part} {s t u : State} (h : OnlyIn ps s t) (k : OnlyIn ps t u) : OnlyIn ps s u :=
  fun q hq => (h q hq).trans (k q hq)

theorem OnlyIn.mono {ps qs : List Part} {s t : State} (h : OnlyIn ps s t) (hs : ps ⊆ qs) : OnlyIn qs s t :=
  fun q hq => h q fun hp => hq (hs hp)

/-- Two changes one after the other, each within parts of a third list. -/
theorem OnlyIn.comp {ps qs rs : List Part} {s t u : State} (h : OnlyIn ps s t) (k : OnlyIn qs t u)
    (hp : ps ⊆ rs := by decide) (hq : qs ⊆ rs := by decide) : OnlyIn rs s u := (h.mono hp).trans (k.mono hq)

theorem OnlyIn.ite {ps : List Part} {s t u : State} {p : Prop} [Decidable p] (h : p → OnlyIn ps s t) (k : ¬p → OnlyIn ps s u) :
    OnlyIn ps s (if p then t else u) := by
  split
  · exact h ‹_›
  · exact k ‹_›

theorem forEach_nil {α : Type} (f : α → State → State) (s : State) : forEach [] f s = s := rfl

theorem forEach_cons {α : Type} (x : α) (xs : List α) (f : α → State → State) (s : State) :
    forEach (x :: xs) f s = forEach xs f (f x s) := rfl

theorem forEach_append {α : Type} (xs ys : List α) (f : α → State → State) (s : State) :
    forEach (xs ++ ys) f s = forEach ys f (forEach xs f s) := List.foldl_append ..

/-- What holds of a state and is kept by each turn of a loop holds after it. -/
theorem forEach_keeps {α : Type} {P : State → Prop} {f : α → State → State} {xs : List α} {s : State} (hs : P s)
    (hf : ∀ x ∈ xs, ∀ s, P s → P (f x s)) : P (forEach xs f s) := by
  induction xs generalizing s with
  | nil => exact hs
  | cons x xs ih =>
    exact ih (hf x (.head _) s hs) fun y hy => hf y (.tail _ hy)

/-- A loop changes only what its turns change. -/
theorem forEach_only {α : Type} {ps : List Part} {f : α → State → State} (xs : List α) (s : State)
    (hf : ∀ x s, OnlyIn ps s (f x s)) : OnlyIn ps s (forEach xs f s) :=
  forEach_keeps (P := OnlyIn ps s) (OnlyIn.refl ps s) fun x _ _ h => h.trans (hf x _)

/-! ### The updates -/

section
variable (s : State)

theorem setTables_only (x : Tables) : OnlyIn [.tables] s (s.setTables x) := fun q h => by cases q <;> first | rfl | simp at h
theorem setCar_only (c : CarIx) (x : CarRec) : OnlyIn [.cars] s (s.setCar c x) :=
  fun q h => by cases q <;> first | rfl | simp at h
theorem setLantern_only (p : PanelIx) (x : Option Lantern) : OnlyIn [.lanterns] s (s.setLantern p x) :=
  fun q h => by cases q <;> first | rfl | simp at h
theorem setQueue_only (k : KioskIx) (x : List Prompt) : OnlyIn [.queues] s (s.setQueue k x) :=
  fun q h => by cases q <;> first | rfl | simp at h
theorem setActive_only (n : NoticeIx) (x : Bool) : OnlyIn [.notices] s (s.setActive n x) :=
  fun q h => by cases q <;> first | rfl | simp at h
theorem setBaseCount_only (x : Nat) : OnlyIn [.timeBase] s (s.setBaseCount x) :=
  fun q h => by cases q <;> first | rfl | simp at h
theorem setTimer_only (t : TimerIx) (x : Timer) : OnlyIn [.timers] s (s.setTimer t x) :=
  fun q h => by cases q <;> first | rfl | simp at h
theorem setContent_only (p : PanelIx) (x : ContentRec) : OnlyIn [.contents] s (s.setContent p x) :=
  fun q h => by cases q <;> first | rfl | simp at h
theorem setHealth_only (p : PanelIx) (x : Health) : OnlyIn [.health] s (s.setHealth p x) :=
  fun q h => by cases q <;> first | rfl | simp at h
theorem setLink_only (l : LinkIx) (x : Link) : OnlyIn [.links] s (s.setLink l x) :=
  fun q h => by cases q <;> first | rfl | simp at h
theorem setExercise_only (x : Exercise) : OnlyIn [.exercise] s (s.setExercise x) :=
  fun q h => by cases q <;> first | rfl | simp at h
theorem setLoss_only (x : Loss) : OnlyIn [.loss] s (s.setLoss x) := fun q h => by cases q <;> first | rfl | simp at h
theorem setRx_only (x : URx) : OnlyIn [.receiver] s (s.setRx x) := fun q h => by cases q <;> first | rfl | simp at h
theorem setCPort_only (x : CPort) : OnlyIn [.cPort] s (s.setCPort x) := fun q h => by cases q <;> first | rfl | simp at h
theorem setUp_only (x : Up) : OnlyIn [.returnPath] s (s.setUp x) := fun q h => by cases q <;> first | rfl | simp at h
theorem setDraws_only (x : Nat) : OnlyIn [.draws] s (s.setDraws x) := fun q h => by cases q <;> first | rfl | simp at h

/-- Raising a flag changes flags and newly raised set only. -/
theorem Mgmt.raise_keeps (a : AlertId) (m : Mgmt) :
    (m.raise a).address = m.address ∧ (m.raise a).strap = m.strap ∧ (m.raise a).selected = m.selected
      ∧ (m.raise a).openWrite = m.openWrite ∧ (m.raise a).counters = m.counters ∧ (m.raise a).mask = m.mask := by
  unfold Mgmt.raise; split <;> simp

/-- A raised flag is set; the others are as they were. -/
theorem Mgmt.raise_flags (a : AlertId) (m : Mgmt) : (m.raise a).flags = m.flags ||| a.mask := by
  unfold Mgmt.raise
  split
  · next h =>
    apply BitVec.eq_of_getLsbD_eq
    intro i hi
    by_cases hb : i = a.bit
    · subst hb; simp [h]
    · have : a.mask.getLsbD i = false := by
        cases a <;> simp [AlertId.mask, AlertId.bit] at * <;> revert hb <;> revert i <;> decide
      simp [this]
  · rfl

theorem raise_only (a : AlertId) : OnlyIn [.flags, .newly] s (raise a s) := fun q h => by
  have k := Mgmt.raise_keeps a s.mgmt
  cases q <;> first | rfl | exact absurd (by decide) h | simp only [Part.Same, raise, State.setMgmt]; simp [k]

/-- One increment changes its counter, and perhaps flags and newly raised set. -/
theorem Mgmt.bump_keeps (c : CounterId) (m : Mgmt) :
    (m.bump c).address = m.address ∧ (m.bump c).strap = m.strap ∧ (m.bump c).selected = m.selected
      ∧ (m.bump c).openWrite = m.openWrite ∧ (m.bump c).mask = m.mask := by
  have k := fun m' : Mgmt => Mgmt.raise_keeps .counterSaturated m'
  dsimp only [Mgmt.bump]
  split
  · split <;> simp [k]
  · simp

theorem bump_only (c : CounterId) : OnlyIn [.counters, .flags, .newly] s (bump c s) := fun q h => by
  have k := Mgmt.bump_keeps c s.mgmt
  cases q <;> first | rfl | exact absurd (by decide) h | simp only [Part.Same, bump, State.setMgmt]; simp [k]

theorem bumpN_only (c : CounterId) (n : Nat) : OnlyIn [.counters, .flags, .newly] s (bumpN c n s) :=
  forEach_only (List.range n) s fun _ s => bump_only s c

/-! ### The composer (chapter 6) -/

theorem raisePhase_only (l : LinkIx) : OnlyIn [.links] s (raisePhase l s) := setLink_only s l _

theorem decideMismatch_only (p : PanelIx) : OnlyIn [.contents, .flags, .newly] s (decideMismatch p s) :=
  OnlyIn.ite (fun _ => (setContent_only s p _).comp (raise_only _ _)) fun _ => (setContent_only s p _).mono (by decide)

theorem captureHeld_only (p : PanelIx) : OnlyIn [.contents] s (captureHeld p s) :=
  OnlyIn.ite (fun _ => setContent_only s p _) fun _ => OnlyIn.refl _ s

theorem takeContent_only (p : PanelIx) (c : Content) : OnlyIn [.contents, .links] s (takeContent p c s) :=
  OnlyIn.ite (fun _ => (setContent_only s p _).comp (raisePhase_only _ _)) fun _ => (setContent_only s p _).mono (by decide)

theorem noteChime_only (p : PanelIx) (c : Content) (b : Bool) : OnlyIn [.lanterns] s (noteChime p c b s) := by
  unfold noteChime
  split
  · exact OnlyIn.refl _ s
  · refine OnlyIn.ite (fun _ => OnlyIn.refl _ s) fun _ => OnlyIn.ite (fun _ => setLantern_only s p _) fun _ => ?_
    split <;> exact setLantern_only s p _

theorem requestEnd_only (cause : EndCause) : OnlyIn [.exercise] s (requestEnd cause s) :=
  OnlyIn.ite (fun _ => setExercise_only s _) fun _ => OnlyIn.refl _ s

theorem noteUrgent_only (p : PanelIx) : OnlyIn [.exercise] s (noteUrgent p s) :=
  OnlyIn.ite (fun _ => requestEnd_only s _) fun _ => OnlyIn.refl _ s

theorem commitContent_only (p : PanelIx) (c : Content) :
    OnlyIn [.contents, .lanterns, .links, .exercise] s (commitContent p c s) :=
  OnlyIn.ite (fun _ => (setContent_only s p _).comp (noteChime_only _ p c _)) fun _ =>
    ((takeContent_only s p c).comp (noteChime_only _ p c _) (rs := [.contents, .lanterns, .links])).comp (noteUrgent_only _ p)

/-- What a recomposition changes at most. -/
theorem recompose_only (p : PanelIx) : OnlyIn composeParts s (recompose p s) :=
  ((decideMismatch_only s p).comp (captureHeld_only _ p) (rs := composeParts)).comp (commitContent_only _ p _)

theorem recomposeWhere_only (q : PanelIx → Bool) : OnlyIn composeParts s (recomposeWhere q s) :=
  forEach_only _ s fun p s => recompose_only s p

theorem recomposeEnabled_only : OnlyIn composeParts s (recomposeEnabled s) := recomposeWhere_only s _

theorem recomposeCar_only (c : CarIx) : OnlyIn composeParts s (recomposeCar c s) := recomposeWhere_only s _

theorem recomposeKiosk_only (k : KioskIx) : OnlyIn composeParts s (recomposeKiosk k s) := recomposeWhere_only s _

/-! ### Timers and lanterns (chapters 5 and 2) -/

theorem phaseChanged_only (t : TimerIx) : OnlyIn composeParts s (phaseChanged t s) :=
  (forEach_only (ps := [.links]) _ s fun l s => raisePhase_only s l).comp (recomposeWhere_only _ _)

theorem putTimer_only (t : TimerIx) (x : Timer) : OnlyIn (.timers :: composeParts) s (putTimer t x s) :=
  OnlyIn.ite (fun _ => (setTimer_only s t x).comp (phaseChanged_only _ t)) fun _ => (setTimer_only s t x).mono (by decide)

theorem sourceEvent_only (t : TimerIx) : OnlyIn (.timers :: composeParts) s (sourceEvent t s) := putTimer_only s t _

theorem sourceEventChain_only (t : TimerIx) : OnlyIn (.timers :: composeParts) s (sourceEventChain t s) :=
  OnlyIn.ite (fun _ => (sourceEvent_only s t).trans (forEach_only _ _ fun t s => sourceEvent_only s t))
    fun _ => sourceEvent_only s t

theorem tickTimers_only : OnlyIn (.timers :: composeParts) s (tickTimers s) :=
  forEach_only _ s fun t s => sourceEventChain_only s t

theorem retrigger_only (k : Retrigger) : OnlyIn [.timers] s (retrigger k s) :=
  forEach_only _ s fun t s => setTimer_only s t _

theorem cadenceStored_only (t : TimerIx) (old : CadenceEntry) : OnlyIn (.timers :: composeParts) s (cadenceStored t old s) :=
  OnlyIn.ite (fun _ => OnlyIn.refl _ s) fun _ => putTimer_only s t _

theorem cadenceSyncFrame_only (payload : List Byte) :
    OnlyIn (.timers :: .counters :: composeParts) s (cadenceSyncFrame payload s) := by
  unfold cadenceSyncFrame
  split
  · exact (forEach_only _ s fun t s => putTimer_only s t _).mono (by decide)
  · exact (bump_only s _).mono (by decide)

theorem dropHeldChime_only (p : PanelIx) : OnlyIn [.contents] s (dropHeldChime p s) := by
  dsimp only [dropHeldChime]
  split
  · exact setContent_only s p _
  · exact OnlyIn.refl _ s

theorem darkenBy_only (evs : List ClosedEvent) (p : PanelIx) : OnlyIn [.contents, .lanterns] s (darkenBy evs p s) := by
  unfold darkenBy
  split
  · exact OnlyIn.ite (fun _ => (setLantern_only s p _).comp (dropHeldChime_only _ p)) fun _ => OnlyIn.refl _ s
  · exact OnlyIn.refl _ s

/-- What the evaluation of a lantern record changes at most. -/
theorem evaluate_only (evs : List ClosedEvent) (p : PanelIx) : OnlyIn (.timers :: composeParts) s (evaluate evs p s) := by
  unfold evaluate
  split
  · exact OnlyIn.refl _ s
  · refine OnlyIn.comp (ps := .timers :: composeParts) ?_ (recompose_only _ p)
    refine OnlyIn.comp (ps := composeParts) (qs := [.timers]) ?_
      (OnlyIn.ite (fun _ => retrigger_only _ _) fun _ => OnlyIn.refl _ _)
    exact OnlyIn.comp (setLantern_only s p _)
      (OnlyIn.ite (ps := [.contents]) (fun _ => dropHeldChime_only _ p) fun _ => OnlyIn.refl _ _)

theorem evaluateWhere_only (evs : List ClosedEvent) (q : Lantern → Bool) :
    OnlyIn (.timers :: composeParts) s (evaluateWhere evs q s) :=
  forEach_only _ s fun p s => evaluate_only s evs p

theorem lanternsOfCar_only (c : CarIx) (evs : List ClosedEvent) :
    OnlyIn (.timers :: composeParts) s (lanternsOfCar c evs s) :=
  (forEach_only (ps := [.contents, .lanterns]) _ s fun p s => darkenBy_only s evs p).comp
    (evaluateWhere_only _ evs _)

theorem syncLantern_only (p : PanelIx) : OnlyIn [.lanterns] s (syncLantern p s) := by
  unfold syncLantern
  split
  · exact setLantern_only s p _
  · split
    · exact OnlyIn.ite (fun _ => OnlyIn.refl _ s) fun _ => setLantern_only s p _
    · exact setLantern_only s p _

theorem rerouted_only (p : PanelIx) : OnlyIn composeParts s (rerouted p s) :=
  (syncLantern_only s p).comp (recompose_only _ p)

theorem deliverChime_only (p : PanelIx) (a : Byte) : OnlyIn composeParts s (deliverChime p a s) := by
  unfold deliverChime
  split
  · exact OnlyIn.refl _ s
  · exact OnlyIn.ite
      (fun _ => ((setLantern_only s p _).comp (dropHeldChime_only _ p) (rs := composeParts)).comp (recompose_only _ p))
      fun _ => OnlyIn.refl _ s

end
end Sys2Proof.Machine
end

