-- ==== Sys2Proof/Laws/FrameUnits.lean ====
section
/-! SUPPORT. The parts that the operations of the prompt unit, the car tracker and the notice unit may change (chapters 3, 1
and 4). -/

-- Many short proofs: elaborated one after another, they need no thread each.
set_option Elab.async false

namespace Sys2Proof.Machine

variable (s : State)

/-! ### Prompts, cars and notices (chapters 3, 1 and 4) -/

/-- What a change of the prompt queues changes at most. -/
theorem putQueue_only (k : KioskIx) (q : List Prompt) : OnlyIn (.queues :: composeParts) s (putQueue k q s) :=
  (setQueue_only s k q).comp (recomposeKiosk_only _ k)

theorem assignFrame_only (payload : List Byte) :
    OnlyIn (.queues :: .timers :: .counters :: composeParts) s (assignFrame payload s) := by
  unfold assignFrame
  split
  · exact (bump_only s _).mono (by decide)
  · refine OnlyIn.ite (fun _ => (bump_only s _).mono (by decide)) fun _ =>
      OnlyIn.ite (fun _ => (bump_only s _).mono (by decide)) fun _ => ?_
    split
    · exact OnlyIn.ite (fun _ => (putQueue_only s _ _).mono (by decide)) fun _ =>
        ((bump_only s _).comp (raise_only _ _) (rs := .queues :: .timers :: .counters :: composeParts)).comp (putQueue_only _ _ _)
    · exact OnlyIn.comp (OnlyIn.ite (ps := [.timers]) (fun _ => retrigger_only s _) fun _ => OnlyIn.refl _ s)
        (putQueue_only _ _ _)

theorem cancelFrame_only (payload : List Byte) : OnlyIn (.queues :: .counters :: composeParts) s (cancelFrame payload s) := by
  unfold cancelFrame
  split
  · exact (bump_only s _).mono (by decide)
  · exact OnlyIn.ite (fun _ => (putQueue_only s _ _).mono (by decide)) fun _ => (bump_only s _).mono (by decide)

theorem tickQueue_only (k : KioskIx) : OnlyIn (.queues :: .counters :: composeParts) s (tickQueue k s) :=
  OnlyIn.ite
    (fun _ => ((setQueue_only s k _).comp (bumpN_only _ _ _) (rs := .queues :: .counters :: composeParts)).comp
      (recomposeKiosk_only _ k))
    fun _ => (setQueue_only s k _).comp (bumpN_only _ _ _)

theorem tickPrompts_only : OnlyIn (.queues :: .counters :: composeParts) s (tickPrompts s) :=
  forEach_only _ s fun k s => tickQueue_only s k

theorem expirePrompt_only (k : KioskIx) (t : BitVec 16) :
    OnlyIn (.queues :: .counters :: composeParts) s (expirePrompt k t s) :=
  OnlyIn.ite (fun _ => (bumpN_only s _ _).comp (putQueue_only _ _ _)) fun _ => OnlyIn.refl _ s

theorem endMarker_only (k : KioskIx) (t : BitVec 16) : OnlyIn (.queues :: composeParts) s (endMarker k t s) :=
  OnlyIn.ite (fun _ => putQueue_only s _ _) fun _ => OnlyIn.refl _ s

theorem boarding_only (e : ClosedEvent) : OnlyIn (.queues :: .counters :: composeParts) s (boarding e s) :=
  forEach_only _ s fun _ s =>
    OnlyIn.ite (fun _ => (bumpN_only s _ _).comp (putQueue_only _ _ _)) fun _ => OnlyIn.refl _ s

theorem serviceEvent_only (c : CarIx) (b a : Mode) : OnlyIn (.queues :: composeParts) s (serviceEvent c b a s) :=
  OnlyIn.ite
    (fun _ => forEach_only _ s fun k s =>
      OnlyIn.ite (fun _ => (setQueue_only s k _).comp (recomposeKiosk_only _ k)) fun _ => (setQueue_only s k _).mono (by decide))
    fun _ => OnlyIn.ite
      (fun _ => forEach_only _ s fun k s =>
        OnlyIn.ite (fun _ => (setQueue_only s k _).comp (recomposeKiosk_only _ k)) fun _ => (setQueue_only s k _).mono (by decide))
      fun _ => OnlyIn.refl _ s

theorem flush_only (k : KioskIx) : OnlyIn (.queues :: .counters :: composeParts) s (flush k s) :=
  (bumpN_only s _ _).comp (putQueue_only _ _ _)

theorem flushZones_only (z : BitVec 16) : OnlyIn (.queues :: .counters :: composeParts) s (flushZones z s) :=
  forEach_only _ s fun k s => flush_only s k

theorem kioskStored_only (k : KioskIx) (old : KioskEntry) :
    OnlyIn (.queues :: .counters :: composeParts) s (kioskStored k old s) := by
  have h : OnlyIn (.queues :: .counters :: composeParts) s
      (if old.enabled && !(s.kioskEntry k).enabled then flush k s
        else if (s.kioskEntry k).enabled && old.enabled && old.zone != (s.kioskEntry k).zone && s.kioskClosed k then flush k s
        else s) :=
    OnlyIn.ite (fun _ => flush_only s k) fun _ => OnlyIn.ite (fun _ => flush_only s k) fun _ => OnlyIn.refl _ s
  exact OnlyIn.ite (fun _ => h) fun _ => h.comp (recomposeKiosk_only _ k)

theorem carChanged_only (c : CarIx) (evs : List ClosedEvent) : OnlyIn (.timers :: composeParts) s (carChanged c evs s) :=
  (lanternsOfCar_only s c evs).comp (recomposeCar_only _ c)

theorem trackReport_only (r : CarReport) : OnlyIn [.cars] s (trackReport r s).1 :=
  ((setCar_only s _ _).trans (setCar_only _ _ _)).trans (setCar_only _ _ _)

/-- What an accepted CAR STATE frame changes at most. -/
theorem acceptReport_only (r : CarReport) :
    OnlyIn (.cars :: .queues :: .timers :: .counters :: composeParts) s (acceptReport r s) := by
  refine OnlyIn.comp (ps := .cars :: .queues :: .timers :: .counters :: composeParts) ?_ (carChanged_only _ _ _)
  refine OnlyIn.comp (ps := .cars :: .queues :: .timers :: .counters :: composeParts) ?_ (serviceEvent_only _ _ _ _)
  refine OnlyIn.comp (ps := .cars :: .queues :: .timers :: .counters :: composeParts) ?_
    (forEach_only _ _ fun e s => boarding_only s e)
  exact (bumpN_only s _ _).comp (trackReport_only _ r)

theorem carStateFrame_only (payload : List Byte) :
    OnlyIn (.cars :: .queues :: .timers :: .counters :: composeParts) s (carStateFrame payload s) := by
  unfold carStateFrame
  split
  · exact (bump_only s _).mono (by decide)
  · exact OnlyIn.ite (fun _ => acceptReport_only s _) fun _ => (bump_only s _).mono (by decide)

theorem becomeStale_only (c : CarIx) : OnlyIn (.cars :: .timers :: composeParts) s (becomeStale c s) :=
  (setCar_only s c _).comp (carChanged_only _ _ _)

theorem tickCars_only : OnlyIn (.cars :: .timers :: composeParts) s (tickCars s) :=
  forEach_only _ s fun c s =>
    OnlyIn.ite (fun _ => OnlyIn.refl _ s) fun _ =>
      OnlyIn.ite (fun _ => becomeStale_only s c) fun _ => (setCar_only s c _).mono (by decide)

theorem redecideAll_only : OnlyIn [.cars] s (redecideAll s) :=
  forEach_only _ s fun c s => OnlyIn.ite (fun _ => setCar_only s c _) fun _ => OnlyIn.refl _ s

theorem trackerStored_only (q : State → Lantern → Bool) : OnlyIn (.cars :: .timers :: composeParts) s (trackerStored q s) :=
  ((redecideAll_only s).comp (evaluateWhere_only _ _ _) (rs := .cars :: .timers :: composeParts)).comp (recomposeEnabled_only _)

theorem carStored_only (c : CarIx) (old : CarEntry) : OnlyIn (.cars :: .timers :: composeParts) s (carStored c old s) :=
  OnlyIn.comp
    (OnlyIn.ite (ps := [.cars]) (fun _ => setCar_only s c _) fun _ =>
      OnlyIn.ite (fun _ => setCar_only s c _) fun _ => OnlyIn.refl _ s)
    (trackerStored_only _ _)

theorem noticeFrame_only (payload : List Byte) :
    OnlyIn (.notices :: .queues :: .timers :: .counters :: composeParts) s (noticeFrame payload s) := by
  unfold noticeFrame
  split
  · exact (bump_only s _).mono (by decide)
  · refine OnlyIn.ite (fun _ => (bump_only s _).mono (by decide)) fun _ => OnlyIn.ite (fun _ => ?_) fun _ => ?_
    · refine OnlyIn.ite (fun _ => OnlyIn.refl _ s) fun _ => ?_
      exact (((setActive_only s _ _).comp (flushZones_only _ _)
        (rs := .notices :: .queues :: .timers :: .counters :: composeParts)).comp (retrigger_only _ _)
        (rs := .notices :: .queues :: .timers :: .counters :: composeParts)).comp (recomposeWhere_only _ _)
    · exact OnlyIn.ite (fun _ => OnlyIn.refl _ s) fun _ => (setActive_only s _ _).comp (recomposeWhere_only _ _)

theorem noticeStored_only (n : NoticeIx) (before : State) :
    OnlyIn (.notices :: .queues :: .counters :: composeParts) s (noticeStored n before s) :=
  OnlyIn.ite (fun _ => OnlyIn.refl _ s) fun _ =>
    OnlyIn.ite (fun _ => (setActive_only s _ _).comp (recomposeWhere_only _ _)) fun _ =>
      (flushZones_only s _).comp (recomposeWhere_only _ _)

end Sys2Proof.Machine
end

