-- ==== Sys2Proof/Laws/FrameLinks.lean ====
section
/-! SUPPORT. The parts that the operations of the panel links, of the exercise, of the table store and of the resets may
change (chapters 7, 8 and 9). -/

-- Many short proofs: elaborated one after another, they need no thread each.
set_option Elab.async false

namespace Sys2Proof.Machine

variable (s : State)

/-! ### Panel links -/

theorem decideLinkFault_only (l : LinkIx) : OnlyIn [.links, .flags, .newly] s (decideLinkFault l s) :=
  OnlyIn.ite (fun _ => (setLink_only s l _).comp (raise_only _ _)) fun _ => (setLink_only s l _).mono (by decide)

theorem healthOutcome_only (p : PanelIx) (good : Bool) :
    OnlyIn [.health, .links, .flags, .newly] s (healthOutcome p good s) :=
  OnlyIn.ite (fun _ => (setHealth_only s p _).mono (by decide)) fun _ =>
    ((setHealth_only s p _).comp (raise_only _ _) (rs := [.health, .links, .flags, .newly])).comp (decideLinkFault_only _ _)

theorem adopt_only (l : LinkIx) : OnlyIn composeParts s (adopt l s) :=
  (setLink_only s l _).comp
    (forEach_only (ps := composeParts) _ _ fun p s => (setContent_only s p _).comp (rerouted_only _ p))

theorem adoptPending_only (l : LinkIx) : OnlyIn composeParts s (adoptPending l s) :=
  OnlyIn.ite (fun _ => adopt_only s l) fun _ => OnlyIn.refl _ s

theorem pick_only (l : LinkIx) : OnlyIn [.links] s (pick l s) := by
  unfold pick
  refine OnlyIn.ite (fun _ => ?_) fun _ => OnlyIn.refl _ s
  split
  · exact OnlyIn.refl _ s
  · exact setLink_only s l _
  · exact setLink_only s l _

theorem pickAll_only : OnlyIn [.links] s (pickAll s) := forEach_only _ s fun l s => pick_only s l

/-! ### The picks that follow an event -/

theorem pickUp_only : OnlyIn [.returnPath, .newly] s (pickUp s) := by
  have alert : OnlyIn [.returnPath, .newly] s (beginAlert s) := fun q h => by
    cases q <;> first | rfl | exact absurd (by decide) h
  have reply : ∀ f, OnlyIn [.returnPath, .newly] s (beginReply f s) := fun f => (setUp_only s _).mono (by decide)
  have ret : ∀ i rest, OnlyIn [.returnPath, .newly] s (beginReturn i rest s) := fun i rest =>
    (setUp_only s _).mono (by decide)
  refine OnlyIn.ite (fun _ => OnlyIn.refl _ s) fun _ => ?_
  split
  · exact reply _
  · split
    · exact OnlyIn.refl _ s
    · exact alert
    · exact ret _ _
    · exact OnlyIn.ite (fun _ => alert) fun _ => ret _ _

theorem settle_only : OnlyIn pickParts s (settle s) := (pickAll_only s).comp (pickUp_only _)

/-! ### The exercise -/

theorem sendExercise_only : OnlyIn [.exercise] s (sendExercise s) := setExercise_only s _

theorem beginRun_only (l : LinkIx) : OnlyIn composeParts s (beginRun l s) :=
  OnlyIn.ite (fun _ => (setExercise_only s _).comp (raise_only _ _)) fun _ =>
    OnlyIn.comp (OnlyIn.comp (setExercise_only s _) (setLink_only _ l _) (rs := composeParts))
      (OnlyIn.ite (ps := [.exercise]) (fun _ => OnlyIn.refl _ _) fun _ => sendExercise_only _)

/-- What the free moment of a line changes at most. -/
theorem freeMoment_only (l : LinkIx) : OnlyIn composeParts s (freeMoment l s) :=
  ((adoptPending_only s l).trans
    (OnlyIn.ite (fun _ => beginRun_only _ l) fun _ => OnlyIn.refl _ _)).comp (pick_only _ l)

theorem endRun_only (st : ExState) (cause : EndCause) : OnlyIn composeParts s (endRun st cause s) :=
  (((setExercise_only s _).comp (setLink_only _ _ _) (rs := composeParts)).comp (raise_only _ _) (rs := composeParts)).trans
    (freeMoment_only _ _)

theorem exerciseOutcome_only (echo : Option (List Byte)) : OnlyIn composeParts s (exerciseOutcome echo s) :=
  (setExercise_only s _).comp (qs := composeParts)
    (OnlyIn.ite (fun _ => endRun_only _ _ _) fun _ =>
      OnlyIn.ite (fun _ => endRun_only _ _ _) fun _ => (adoptPending_only _ _).comp (sendExercise_only _))

theorem reloadRetry_only (q : Sequence) : OnlyIn [.health] s (reloadRetry q s) :=
  OnlyIn.ite (fun _ => setHealth_only s _ _) fun _ => OnlyIn.refl _ s

theorem endMiss_only (l : LinkIx) (q : Sequence) : OnlyIn outcomeParts s (endMiss l q s) :=
  ((((setLink_only s l _).comp (bump_only _ _) (rs := outcomeParts)).comp (healthOutcome_only _ _ _) (rs := outcomeParts)).comp
    (reloadRetry_only _ q) (rs := outcomeParts)).comp (freeMoment_only _ l)

theorem ackKind_only (p : PanelIx) (k st : Byte) : OnlyIn [.health, .flags, .newly] s (ackKind p k st s) :=
  OnlyIn.ite (fun _ => (setHealth_only s p _).comp (raise_only _ _)) fun _ => (setHealth_only s p _).mono (by decide)

theorem takeAck_only (l : LinkIx) (q : Sequence) (a k st : Byte) : OnlyIn outcomeParts s (takeAck l q a k st s) := by
  refine OnlyIn.comp (ps := outcomeParts) ?_ (freeMoment_only _ l)
  refine OnlyIn.comp (ps := outcomeParts) ?_ (deliverChime_only _ _ a)
  refine OnlyIn.comp (ps := outcomeParts) ?_ (reloadRetry_only _ q)
  refine OnlyIn.comp (ps := outcomeParts) (qs := [.health]) ?_
    (OnlyIn.ite (fun _ => setHealth_only _ _ _) fun _ => OnlyIn.refl _ _)
  refine OnlyIn.comp (ps := outcomeParts) ?_ (ackKind_only _ _ k st)
  refine OnlyIn.comp (ps := outcomeParts) ?_ (healthOutcome_only _ _ _)
  exact OnlyIn.comp (OnlyIn.comp (setLink_only s l _) (setContent_only _ _ _) (rs := outcomeParts))
    (OnlyIn.ite (ps := outcomeParts) (fun _ => OnlyIn.refl _ _) fun _ => (bump_only _ _).mono (by decide))

theorem replyComplete_only (l : LinkIx) (data : List Byte) : OnlyIn outcomeParts s (replyComplete l data s) := by
  dsimp only [replyComplete]
  split
  · split
    · exact takeAck_only s _ _ _ _ _
    · exact endMiss_only s l _
  · exact OnlyIn.ite (fun _ => (exerciseOutcome_only s _).mono (by decide)) fun _ => OnlyIn.refl _ s

theorem replyMissing_only (l : LinkIx) : OnlyIn outcomeParts s (replyMissing l s) := by
  dsimp only [replyMissing]
  split
  · exact endMiss_only s l _
  · exact OnlyIn.ite (fun _ => (exerciseOutcome_only s _).mono (by decide)) fun _ => OnlyIn.refl _ s

theorem lastLine_only (l : LinkIx) : OnlyIn [.links] s (lastLine l s) :=
  OnlyIn.ite (fun _ => setLink_only s l _) fun _ => OnlyIn.refl _ s

theorem exerciseSent_only (l : LinkIx) : OnlyIn [.exercise] s (exerciseSent l s) :=
  OnlyIn.ite (fun _ => setExercise_only s _) fun _ => OnlyIn.refl _ s

theorem lineCleared_only (l : LinkIx) : OnlyIn composeParts s (lineCleared l s) :=
  OnlyIn.ite (fun _ => (sendExercise_only s).mono (by decide)) fun _ => (setLink_only s l _).comp (freeMoment_only _ l)

theorem phaseEnd_only (l : LinkIx) : OnlyIn composeParts s (phaseEnd l s) :=
  OnlyIn.ite (fun _ => (setLink_only s l _).comp (lineCleared_only _ l)) fun _ => OnlyIn.refl _ s

theorem abortSent_only (l : LinkIx) : OnlyIn composeParts s (abortSent l s) :=
  OnlyIn.ite (fun _ => (setLink_only s l _).comp (lineCleared_only _ l)) fun _ => OnlyIn.refl _ s

theorem tickPanels_only : OnlyIn [.health] s (tickPanels s) :=
  forEach_only _ s fun p s =>
    OnlyIn.ite (fun _ => setHealth_only s p _) fun _ =>
      OnlyIn.ite (fun _ => setHealth_only s p _) fun _ => OnlyIn.refl _ s

theorem keepAliveDue_only (p : PanelIx) : OnlyIn [.health] s (keepAliveDue p s) :=
  OnlyIn.ite (fun _ => setHealth_only s p _) fun _ => OnlyIn.refl _ s

theorem retryDue_only (p : PanelIx) : OnlyIn [.health] s (retryDue p s) :=
  OnlyIn.ite (fun _ => setHealth_only s p _) fun _ => OnlyIn.refl _ s

theorem stopExercise_only (cause : EndCause) : OnlyIn [.exercise, .flags, .newly] s (stopExercise cause s) :=
  OnlyIn.ite (fun _ => (setExercise_only s _).comp (raise_only _ _)) fun _ => (requestEnd_only s _).mono (by decide)

theorem panelStored_only (p : PanelIx) : OnlyIn composeParts s (panelStored p s) :=
  ((rerouted_only s p).comp
    (OnlyIn.ite (ps := [.exercise, .flags, .newly]) (fun _ => stopExercise_only _ _) fun _ => OnlyIn.refl _ _)
    (rs := composeParts)).comp (decideLinkFault_only _ _)

end Sys2Proof.Machine
end

