-- ==== Sys2Proof/Laws/FramePort.lean ====
section
/-! SUPPORT. The parts that the table store, the management requests, the ports, the resets and the picks may change
(chapter 9). -/

-- Many short proofs: elaborated one after another, they need no thread each.
set_option Elab.async false

namespace Sys2Proof.Machine

variable (s : State)

/-! ### The table store -/

theorem routeStored_only (bank : Bank) (p : PanelIx) : OnlyIn composeParts s (routeStored bank p s) :=
  OnlyIn.ite (fun _ => rerouted_only s p) fun _ => OnlyIn.refl _ s

theorem ownerActs_only (t : Fin 11) (i : Nat) (before : State) : OnlyIn storeParts s (ownerActs t i before s) := by
  unfold ownerActs
  split
  · exact (recomposeEnabled_only s).mono (by decide)
  · exact (trackerStored_only s _).mono (by decide)
  · exact (carStored_only s _ _).mono (by decide)
  · exact (trackerStored_only s _).mono (by decide)
  · exact (kioskStored_only s _ _).mono (by decide)
  · exact (panelStored_only s _).mono (by decide)
  · exact (routeStored_only s _ _).mono (by decide)
  · exact (routeStored_only s _ _).mono (by decide)
  · exact (recomposeEnabled_only s).mono (by decide)
  · exact (noticeStored_only s _ _).mono (by decide)
  · exact (cadenceStored_only s _ _).mono (by decide)

theorem storeEntry_only (t : Fin 11) (i : Nat) (bs : List Byte) : OnlyIn storeParts s (storeEntry t i bs s) :=
  (OnlyIn.comp (setTables_only s _) (bumpN_only _ _ _) (rs := storeParts)).comp (ownerActs_only _ t i s)

theorem setOpenWrite_only (x : Option OpenWrite) :
    OnlyIn [.openWrite] s (s.setMgmt { s.mgmt with openWrite := x }) := fun q h => by
  cases q <;> first | rfl | simp at h

theorem closeWrite_only : OnlyIn [.openWrite] s (closeWrite s) := setOpenWrite_only s none

theorem storeAtPointer_only (bs : List Byte) : OnlyIn storeParts s (storeAtPointer bs s) := by
  unfold storeAtPointer
  split
  · exact OnlyIn.refl _ s
  · exact (setOpenWrite_only s _).comp (storeEntry_only _ _ _ bs)

theorem putWrite_only (w : WriteRx) : OnlyIn [.receiver] s (putWrite w s) := setRx_only s _

theorem startIndexArrives_only (t : Option (Fin 11)) (b : Byte) :
    OnlyIn [.receiver, .openWrite] s (startIndexArrives t b s) := by
  unfold startIndexArrives
  split
  · exact (closeWrite_only s).comp (putWrite_only _ _)
  · exact OnlyIn.ite (fun _ => (setOpenWrite_only s _).comp (putWrite_only _ _)) fun _ =>
      (closeWrite_only s).comp (putWrite_only _ _)

theorem entryArrives_only (entry : List Byte) (check : Byte) :
    OnlyIn (.receiver :: storeParts) s (entryArrives entry check s) :=
  OnlyIn.ite (fun _ => (putWrite_only s _).comp (raise_only _ _)) fun _ =>
    OnlyIn.ite (fun _ => (putWrite_only s _).mono (by decide)) fun _ => (putWrite_only s _).comp (storeAtPointer_only _ _)

/-- An entry checked but not stored touches nothing but the receiver and the alert flags. -/
theorem unstoredEntryArrives_only (entry : List Byte) (check : Byte) :
    OnlyIn [.receiver, .flags, .newly] s (unstoredEntryArrives entry check s) :=
  OnlyIn.ite (fun _ => (putWrite_only s _).comp (raise_only _ _)) fun _ => (putWrite_only s _).mono (by decide)

theorem continueBegins_only : OnlyIn [.receiver, .draws] s (continueBegins s) :=
  OnlyIn.ite (fun _ => (putWrite_only s _).mono (by decide)) fun _ => (setDraws_only s _).comp (putWrite_only _ _)

theorem writeByte_only (b : Byte) : OnlyIn streamParts s (writeByte b s) := by
  dsimp only [writeByte]
  split
  · exact (putWrite_only s _).mono (by decide)
  · exact (startIndexArrives_only s _ b).mono (by decide)
  · refine OnlyIn.ite (fun _ => (putWrite_only s _).mono (by decide)) fun _ => ?_
    exact (entryArrives_only s _ b).comp (settle_only _)
  · exact OnlyIn.ite (fun _ => (putWrite_only s _).mono (by decide)) fun _ =>
      (unstoredEntryArrives_only s _ b).comp (settle_only _)
  all_goals exact OnlyIn.refl _ s

theorem writeBytes_only (bs : List Byte) : OnlyIn streamParts s (writeBytes bs s) :=
  forEach_only bs s fun b s => writeByte_only s b

theorem storeHeld_only : OnlyIn (.receiver :: storeParts) s (storeHeld s) :=
  (putWrite_only s _).comp (forEach_only (ps := storeParts) _ _ fun bs s => storeAtPointer_only s bs)

/-! ### Answers and resets -/

theorem answer_only (d : Dest) (tag kind : Byte) (r : Result) (data : List Byte) :
    OnlyIn [.returnPath] s (answer d tag kind r data s) := by
  unfold answer
  split
  · exact OnlyIn.refl _ s
  · exact setUp_only s _

theorem request_only {ps : List Part} (d : Dest) {work : State → State} (h : OnlyIn ps s (work s))
    (hs : [Part.counters, .flags, .newly] ⊆ ps) : OnlyIn ps s (request d work s) :=
  OnlyIn.ite (fun _ => (bump_only s _).mono hs) fun _ => h

theorem clearDeltas_only (first count : Nat) : OnlyIn [.health] s (clearDeltas first count s) :=
  forEach_only _ s fun p s => setHealth_only s p _

theorem bankSelected_only : OnlyIn composeParts s (bankSelected s) := forEach_only _ s fun l s => adoptPending_only s l

theorem acceptStart_only (l : LinkIx) : OnlyIn composeParts s (acceptStart l s) :=
  OnlyIn.ite (fun _ => freeMoment_only s l) fun _ => OnlyIn.refl _ s

/-- What NODE RESET changes at most: the tables, the address, the bank, the mask, the time base and the ports are kept. -/
theorem nodeResetState_only :
    OnlyIn ([.openWrite, .cars, .queues, .notices, .timers, .health, .counters, .loss] ++ composeParts) s
      (nodeResetState s) := by
  refine OnlyIn.comp (ps := [.openWrite, .cars, .queues, .notices, .timers, .health, .counters, .loss] ++ composeParts)
    (qs := [.links]) ?_ (forEach_only _ _ fun l s => setLink_only s l _)
  refine OnlyIn.comp (ps := [.openWrite, .cars, .queues, .notices, .timers, .health, .counters, .loss] ++ composeParts)
    (qs := composeParts) ?_
    (forEach_only _ _ fun p s => (setContent_only s p _).comp (rerouted_only _ p))
  refine OnlyIn.comp (ps := [.openWrite, .cars, .queues, .notices, .timers, .health, .counters, .loss] ++ composeParts)
    (qs := [.timers]) ?_ (forEach_only _ _ fun t s => setTimer_only s t _)
  have cut : OnlyIn [.links] s (forEach allLinks cutLink s) := forEach_only _ s fun l s => setLink_only s l _
  have clear : ∀ u : State, OnlyIn [.openWrite, .cars, .queues, .notices, .lanterns, .health, .exercise, .loss, .counters
      , .flags, .newly] u
      { u with
        cars := .replicate 24 .powerOn, queues := .replicate 32 [], active := .replicate 16 false
        lanterns := .replicate 120 none, health := .replicate 120 .powerOn, exercise := .powerOn
        loss := { asserted := false, countdown := u.profile.lossTimeout }, mgmt := u.mgmt.nodeReset } :=
    fun u q h => by cases q <;> first | exact absurd (by decide) h | rfl
  exact cut.comp (clear _)

/-! ### Commands outside the reset pin -/

/-- Every command outside the reset pin answers a next state: the one it finds while the pin is low, and otherwise its effect
followed by the picks. -/
theorem effect_next (f : State → State) (h : s.inReset = false) : effect s f = .next (settle (f s)) := by
  simp [effect, act, h]

theorem effect_held (f : State → State) (h : s.inReset = true) : effect s f = .next s := by simp [effect, act, h]

/-! ### The receivers -/

theorem pushC_only (c : LineChar) : OnlyIn [.cPort] s (pushC c s) := setCPort_only s _

theorem pushAllC_only (cs : List LineChar) : OnlyIn [.cPort] s (pushAllC cs s) := forEach_only cs s fun c s => pushC_only s c

theorem undecidedToIdle_only : OnlyIn [.cPort] s (undecidedToIdle s) :=
  OnlyIn.ite (fun _ => setCPort_only s _) fun _ => OnlyIn.refl _ s

/-- What a break changes: the receiver, the delay line, the broken frames counter. -/
def breakParts : List Part := [.receiver, .cPort, .counters, .flags, .returnPath, .newly]

theorem uBegin_only : OnlyIn [.receiver, .cPort] s (uBegin s) := (setRx_only s _).comp (pushC_only _ _)

theorem uBreak_only : OnlyIn breakParts s (uBreak s) :=
  ((setRx_only s _).comp (bump_only _ _) (rs := breakParts)).comp (pickUp_only _)

theorem uAbort_only : OnlyIn breakParts s (uAbort s) :=
  OnlyIn.ite (fun _ => (pushC_only s _).mono (by decide)) fun _ =>
    ((undecidedToIdle_only s).comp (pushC_only _ _) (rs := breakParts)).comp (uBreak_only _)

theorem uStart_only : OnlyIn breakParts s (uStart s) :=
  OnlyIn.ite (fun _ => (uBegin_only s).mono (by decide)) fun _ =>
    OnlyIn.ite (fun _ => ((pushC_only s _).comp (uBreak_only _) (rs := breakParts)).comp (setRx_only _ _)) fun _ =>
      ((undecidedToIdle_only s).comp (uBreak_only _) (rs := breakParts)).comp (uBegin_only _)

theorem uSilence_only : OnlyIn breakParts s (uSilence s) :=
  OnlyIn.ite (fun _ => OnlyIn.refl _ s) fun _ =>
    ((undecidedToIdle_only s).comp (setCPort_only _ _) (rs := breakParts)).comp (uBreak_only _)

theorem decideHead_only (forward : Bool) : OnlyIn [.cPort] s (decideHead forward s) :=
  OnlyIn.ite (fun _ => setCPort_only s _) fun _ => setCPort_only s _

theorem decide2_only : OnlyIn [.receiver, .cPort] s (decide2 s) := by
  unfold decide2
  split
  · exact (setRx_only s _).comp (decideHead_only _ _)
  · exact OnlyIn.refl _ s

theorem beginWrite_only (kind : Byte) : OnlyIn [.receiver, .draws] s (beginWrite kind s) :=
  OnlyIn.ite (fun _ => continueBegins_only s) fun _ => (putWrite_only s _).mono (by decide)

theorem streamChar_only (b : Byte) : OnlyIn streamParts s (streamChar b s) :=
  OnlyIn.ite
    (fun _ => OnlyIn.ite (fun _ => (beginWrite_only s _).mono (by decide)) fun _ =>
      OnlyIn.ite (fun _ => writeByte_only s b) fun _ => OnlyIn.refl _ s)
    fun _ => OnlyIn.refl _ s

theorem uData_only (stream : Bool) (b : Byte) : OnlyIn streamParts s (uData stream b s) := by
  refine OnlyIn.ite (fun _ => (pushC_only s _).mono (by decide)) fun _ =>
    OnlyIn.ite (fun _ => (pushC_only s _).comp (uBreak_only _)) fun _ => ?_
  refine OnlyIn.comp (ps := [.receiver, .cPort]) (qs := streamParts) ?_
    (OnlyIn.ite (fun _ => streamChar_only _ b) fun _ => OnlyIn.refl _ _)
  exact ((setRx_only s _).comp (pushC_only _ _) (rs := [.receiver, .cPort])).trans (decide2_only _)

/-- IDLE characters alone change nothing but what goes out on C. -/
theorem uIdle_only : OnlyIn [.cPort] s (uIdle s) := OnlyIn.ite (fun _ => OnlyIn.refl _ s) fun _ => pushC_only s _

theorem feed_only (payload : Nat) (cs : List RxChar) : OnlyIn streamParts s (feed payload cs s) := by
  induction cs generalizing payload s with
  | nil => exact OnlyIn.refl _ s
  | cons c cs ih =>
    cases c with
    | data b => exact (uData_only s _ b).trans (ih _ _)
    | idle => exact ((uIdle_only s).mono (by decide)).trans (ih _ _)

theorem feedData_only (bs : List Byte) : OnlyIn streamParts s (feedData bs s) := feed_only s _ _

theorem ensureFrame_only : OnlyIn [.receiver, .cPort] s (ensureFrame s) :=
  OnlyIn.ite (fun _ => OnlyIn.refl _ s) fun _ => uBegin_only s

theorem freshFrame_only : OnlyIn breakParts s (freshFrame s) :=
  OnlyIn.ite (fun _ => OnlyIn.refl _ s) fun _ => uStart_only s

theorem frameChars_only (payload : Nat) (cs : List RxChar) : OnlyIn streamParts s (frameChars payload cs s) :=
  ((feed_only s _ _).comp (ensureFrame_only _) (rs := streamParts)).trans (feed_only _ _ _)

theorem breaks_only (cs : List RxChar) (cause : BreakCause) : OnlyIn streamParts s (breaks cs cause s) := by
  have h : OnlyIn streamParts s (frameChars cs.length cs s) := frameChars_only s _ cs
  dsimp only [breaks]
  split
  · exact h.comp (uAbort_only _)
  · exact h.trans (OnlyIn.ite (fun _ => (uAbort_only _).mono (by decide)) fun _ => OnlyIn.refl _ _)
  · exact h.comp (uStart_only _)

theorem writeCharsArrive_only (cs : List RxChar) : OnlyIn streamParts s (writeCharsArrive cs s) :=
  OnlyIn.ite (fun _ => feed_only s _ _) fun _ => frameChars_only s _ cs

/-- Whatever a whole frame is, what goes out on C for it is a matter of the C port alone. -/
theorem frameOnC_only (t : Target) (data : List Byte) : OnlyIn [.cPort] s (frameOnC t data s) :=
  ((pushAllC_only s _).trans (decideHead_only _ _)).trans (pushAllC_only _ _)

/-! ### Good frames -/

theorem dispatchRestored_only : OnlyIn composeParts s (dispatchRestored s) :=
  ((raise_only s _).comp (forEach_only (ps := [.contents]) _ _ fun p s => setContent_only s p _) (rs := composeParts)).comp
    (recomposeEnabled_only _)

/-- What every good frame changes at most, before it is taken. -/
theorem goodFrame_only : OnlyIn (.loss :: .counters :: composeParts) s (goodFrame s) :=
  OnlyIn.ite
    (fun _ => ((bump_only s _).comp (setLoss_only _ _) (rs := .loss :: .counters :: composeParts)).comp
      (dispatchRestored_only _))
    fun _ => (bump_only s _).comp (setLoss_only _ _)

theorem writePayload_only (kind : Byte) (payload : List Byte) : OnlyIn streamParts s (writePayload kind payload s) :=
  OnlyIn.ite (fun _ => (beginWrite_only s _).comp (writeBytes_only _ payload)) fun _ => (putWrite_only s _).mono (by decide)

/-! ### The return path -/

theorem setSlot_only (i : Fin 2) (x : Slot) : OnlyIn [.returnPath] s (setSlot i x s) := setUp_only s _

/-- What arrivals on C change: the return path and the return drops counter. -/
def returnParts : List Part := [.returnPath, .counters, .flags, .newly]

theorem returnDrop_only : OnlyIn returnParts s (returnDrop s) := (bump_only s _).comp (pickUp_only _)

theorem cBreak_only : OnlyIn returnParts s (cBreak s) := by
  unfold cBreak
  split
  · exact OnlyIn.refl _ s
  · exact (setUp_only s _).mono (by decide)
  · exact ((setSlot_only s _ _).trans (setUp_only _ _)).comp (returnDrop_only _)

theorem cStart_only : OnlyIn returnParts s (cStart s) := by
  dsimp only [cStart]
  split
  · exact (cBreak_only s).comp ((setSlot_only _ _ _).trans (setUp_only _ _))
  · exact (cBreak_only s).trans ((setUp_only _ _).comp (returnDrop_only _))

theorem cEnd_only (data : List Byte) : OnlyIn returnParts s (cEnd data s) := by
  unfold cEnd
  split
  · exact OnlyIn.ite
      (fun _ => (((setSlot_only s _ _).trans (setUp_only _ _)).trans (setUp_only _ _)).mono (by decide))
      fun _ => cBreak_only s
  · exact cBreak_only s

theorem returnArrives_only (a : ReturnArrival) : OnlyIn returnParts s (returnArrives a s) := by
  unfold returnArrives
  split
  · exact cStart_only s
  · exact cEnd_only s _
  · exact cBreak_only s
  · exact (cStart_only s).trans (cEnd_only _ _)

theorem upSent_only : OnlyIn [.returnPath] s (upSent s) := by
  unfold upSent
  split
  · exact OnlyIn.refl _ s
  · exact setUp_only s _
  · exact setUp_only s _
  · exact (setSlot_only s _ _).trans (setUp_only _ _)

end Sys2Proof.Machine
end

