-- ==== Sys2Proof/Tests/Slice0.lean ====
section
/-! SUPPORT. Own tests: what WellFormed refuses, the spec's worked examples, one step each, and for every obligation with
hypotheses a concrete case that meets them. Expected values are the spec's. -/

-- Many short proofs: elaborated one after another, they need no thread each.
set_option Elab.async false

namespace Sys2Proof.Tests

open Sys2Proof.Machine

/-! ### WellFormed refuses -/

/-- A payload one byte too long, a frame one character too long, and a panel-link frame one character too long. -/
def longPayload : List Byte := List.replicate 249 0
def longFrame : List Byte := List.replicate 254 0
def longChars : List RxChar := List.replicate 254 (.data 0)
def longPanel : List Byte := List.replicate 21 0

theorem test_wf_frameComplete : (Instr.frameComplete (.idle :: longChars)).wellFormed = false := by decide +kernel
theorem test_wf_entryCrc8Arrives : (Instr.entryCrc8Arrives longChars).wellFormed = false := by decide +kernel
theorem test_wf_brokenFrame : (Instr.brokenFrame (.data 0 :: longChars) .abort).wellFormed = false := by decide +kernel
theorem test_wf_brokenFrame_longest : (Instr.brokenFrame (.idle :: longChars) .tooLong).wellFormed = true := by decide +kernel
theorem test_wf_operational :
    [Instr.carState longPayload, .assign longPayload, .cancel longPayload, .cadenceSync longPayload].all
      (fun c => !c.wellFormed) = true := by decide +kernel
theorem test_wf_requests :
    [Instr.tableWrite .own 0 longPayload, .tableContinue .own 0 longPayload, .tableRead .own 0 longPayload
    , .bankSelect .own 0 longPayload, .alertMask .own 0 longPayload, .alertClear .own 0 longPayload
    , .exerciseStart .own 0 longPayload, .exerciseStop .own 0 longPayload, .nodeReset .own 0 longPayload
    , .addressSet .own 0 longPayload].all (fun c => !c.wellFormed) = true := by decide +kernel
theorem test_wf_returnFrame :
    [Instr.returnFrame (.closes longFrame), .returnFrame (.whole longFrame)].all (fun c => !c.wellFormed) = true := by decide +kernel
theorem test_wf_panel_replies : [Instr.ack 0 longPanel, .echo 0 longPanel].all (fun c => !c.wellFormed) = true := by decide +kernel

/-! ### The spec's check values and patterns (R193, R152) -/

/-- The characters "123456789". -/
def digits : List Byte := [0x31, 0x32, 0x33, 0x34, 0x35, 0x36, 0x37, 0x38, 0x39]

theorem test_crc16 : crc16 digits = 0x29B1#16 := by decide +kernel
theorem test_crc8 : crc8 digits = 0xF4#8 := by decide +kernel
theorem test_p7 : (Gen.take 2 Pattern.p7.seed).2 = [0x02, 0x0C] := by decide +kernel
theorem test_p15 : (Gen.take 2 Pattern.p15.seed).2 = [0x00, 0x02] := by decide +kernel
theorem test_alt : (Gen.take 3 Pattern.alt.seed).2 = [0x55, 0xAA, 0x55] := by decide +kernel
theorem test_every_code_has_its_kind :
    [Entrance.ofCode 4, none].all Option.isNone ∧ (Mode.ofCode 5).isNone ∧ (Dir.ofCode 3).isNone ∧ (PromptDeck.ofCode 3).isNone
      ∧ (PromptClass.ofCode 4).isNone ∧ (Bank.ofCode 2).isNone ∧ (Pattern.ofCode 3).isNone ∧ (Window.ofCode 5).isNone
      ∧ (Blink.ofCode 5).isNone ∧ (PanelKind.ofCode 5).isNone := by decide +kernel

/-! ### A small site -/

def floorAt (level : Nat) : FloorEntry := { FloorEntry.powerOn with defined := true, level := level }
def carOf (offset : Nat) : CarEntry :=
  { CarEntry.powerOn with enabled := true, deckOffset := offset, leadTime := 500, leadCap := 3000, hysteresis := 150 }
def panelOf (k : PanelKind) : PanelEntry := { PanelEntry.powerOn with enabled := true, kind := k, columns := 8 }

/-- Floors 39 to 41 of section 1.5.1, single-deck car 5, double-deck car 6, kiosk 2 on floor 40, kiosk 5 in zone 1 on floor 41,
panels 0 (PL0) and 15 (PL1), a RECALL notice 1 for zone 1, an ADVISORY notice 3, and CT0 alternating after 3 and 2 base ticks. -/
def siteTables : Tables :=
  let t := Tables.powerOn
  { t with
    floors := ((t.floors.set 39 (floorAt 157000)).set 40 (floorAt 161200)).set 41 (floorAt 165400)
    cars := (t.cars.set 5 (carOf 0)).set 6 (carOf 4200)
    kiosks := (t.kiosks.set 2 { KioskEntry.powerOn with enabled := true, floor := 40 }).set 5
      { KioskEntry.powerOn with enabled := true, floor := 41, zone := 1 }
    panels := (t.panels.set 0 (panelOf .carIndicator)).set 15 (panelOf .kioskScreen)
    notices := (t.notices.set 1 { NoticeEntry.powerOn with enabled := true, cls := .recall, kinds := 31, zones := 3 }).set 3
      { NoticeEntry.powerOn with enabled := true, cls := .advisory, cadence := .ct 0, kinds := 31, zones := 1 }
    cadence := t.cadence.set 0 { CadenceEntry.powerOn with mode := .alternate, limitA := 3, limitB := 2 } }

/-- The site with dispatch loss clear. -/
def site : State := { State.reset with tables := siteTables, loss := { asserted := false, countdown := 20 } }

/-- Car 5 stands with open entrance at floor 40. -/
def carAt40 : CarRec :=
  { CarRec.powerOn with
    present := true, position := 161200, entrance := .open, lower := { floor := some 40, atFloor := true, openFloor := some 40 }
    staleCountdown := 1, snapPending := false }

/-- A prompt of kiosk 2 for car 5 to floor 41, its hold and its marker about to end. -/
def promptTo41 : Prompt :=
  { ticket := 0x044D, destination := 41, car := 5, deck := .single, cls := .standard, hold := 1, marker := 1, withdrawn := false }

/-- The site with the car at floor 40 and one prompt. -/
def busy : State := (site.setCar 5 carAt40).setQueue 2 [promptTo41]

/-- The state a command leaves. -/
def after (c : Instr) (s : State) : State :=
  match exec c s with
  | .next t => t
  | _ => s

/-- The contents of the enabled panels composed from the inputs as they stand. -/
def composed (s : State) : State :=
  [0, 15].foldl (fun s p => s.setContent p { s.content p with content := s.compose p }) s

/-- A refresh sequence to panel 0. -/
def sequence0 : Sequence :=
  { panel := 0, cls := .retry, version := 7, urgent := false, kind := .off, chime := .none, lines := [] }

/-- The site with that sequence on PL0, awaiting its ACK, and with it being sent. -/
def awaiting : State := site.setLink 0 { Link.powerOn with activity := .awaitingAck, sequence := some sequence0 }
def sending : State := site.setLink 0 { Link.powerOn with activity := .sendingSequence, sequence := some sequence0 }

/-- A run of P7 on PL1 to panel 15 (address 0): its frame 256 is in flight and its reply window open. -/
def exercising : State :=
  (site.setExercise
    { Exercise.powerOn with
      state := .running, link := 1, framesSent := 256, flight := some (Gen.take 16 Pattern.p7.seed).2, awaiting := true }).setLink 1
    { Link.powerOn with activity := .exercise }

/-- A cadence entry's six bytes, and a write open at that table's last entry. -/
def cadenceBytes : List Byte := [2, 0, 1, 44, 0, 200]
def openAt (s : State) : State := { s with mgmt := { s.mgmt with openWrite := some { table := 10, pointer := 3 } } }

/-- The site with a lantern on panel 30 (PL2) for car 5 at floor 40: dark with the car's entrance closed, and lit with a chime
pending. -/
def lantern40 : Lantern :=
  { floor := 40, car := 5, deck := .lower, state := .dark, chime := .none, given := false, chimeVersion := none, chimeRound := false }
def lanternTables : Tables :=
  { siteTables with
    panels := siteTables.panels.set 30 (panelOf .lantern)
    routesA := siteTables.routesA.set 30 { Route.powerOn with kind := .lantern, a := 40, b := 5 } }
def lanternSite (car : CarRec) (k : Lantern) : State :=
  ({ site with tables := lanternTables }.setCar 5 car).setLantern 30 (some k)
def darkLantern : State := lanternSite { carAt40 with entrance := .closed, lower := { carAt40.lower with openFloor := none } } lantern40
def litLantern : State :=
  lanternSite carAt40 { lantern40 with state := .arrived, chime := .up, given := true, chimeVersion := some 0 }

/-- The receiver inside a TABLE CONTINUE to all nodes whose header has arrived. -/
def continuing : State :=
  (openAt site).setRx
    { URx.outside with
      inFrame := true, data := [kindTableContinue, 63, 1], target := some .all, write := { WriteRx.fresh with stage := .entries } }

/-- The same receiver with no write open, its frame's entries checked as those of the cadence table. -/
def checking : State :=
  site.setRx { continuing.rx with write := { WriteRx.fresh with stage := .noWrite 6 } }

/-- A REPLY. -/
def someReply : UpFrame := { kind := kindReply, source := 0, tag := 0, payload := [] }

/-! ### Worked examples, one step each -/

/-- Section 1.5.1: P 160,500 and V +6,000 with D 40: the display steps to floor 41. -/
theorem test_track_up :
    ((after (.carState (carStatePayload 5 0x02 0x72 0xF4 0x17 0x70 .closed .normal .up 255))
      (site.setCar 5 { carAt40 with entrance := .closed })).car 5).lower.floor = some 41 := by decide +kernel

/-- Section 1.5.4: P 163,600 and V -800 with D 41: the step to floor 40 falls short. -/
theorem test_track_reversal_short :
    ((after (.carState (carStatePayload 5 0x02 0x7F 0x10 0xFC 0xE0 .closed .normal .down 255))
      (site.setCar 5 { carAt40 with entrance := .closed, lower := { DeckRec.powerOn with floor := some 41 } })).car 5).lower.floor
        = some 41 := by decide +kernel

/-- R8: a position beyond 1,048,575 and a velocity beyond 16,000 are stored at the limit, and count two clamps. -/
theorem test_input_clamps :
    let t := after (.carState (carStatePayload 5 0xFF 0xFF 0xFF 0x80 0x00 .closed .normal .none 160)) site
    (t.car 5).position = 1048575 ∧ (t.car 5).velocity = -16000 ∧ (t.car 5).nextStop = none
      ∧ t.mgmt.counter .inputClamps = 2 := by decide +kernel

/-- R7: a direction code of 3 makes the frame malformed. -/
theorem test_bad_direction :
    let t := after (.carState [5, 0, 0, 0, 0, 0, 0, 0, 3, 0]) site
    t.mgmt.counter .malformed = 1 ∧ (t.car 5).present = false := by decide +kernel

/-- R49: GROUP takes one and a half times the hold of 80, and a second ticket joins at the front. -/
theorem test_assign_group :
    ((after (.assign (assignPayload 2 0x03 0xEA 41 5 .single .group)) busy).queue 2).map (fun r => (r.ticket.toNat, r.hold))
      = [(1002, 120), (1101, 1)] := by decide +kernel

/-- R57: the car closes at floor 40 upward, and the prompt to floor 41 boards. -/
theorem test_boarding :
    let t := after (.carState (carStatePayload 5 0x02 0x75 0xB0 0 0 .closed .normal .up 255)) busy
    t.queue 2 = [] ∧ t.mgmt.counter .promptsBoarded = 1 := by decide +kernel

/-- R56: the housekeeping tick that brings a hold to 0 removes the record. -/
theorem test_prompt_expires : (after .housekeepingTick busy).queue 2 = [] := by decide +kernel

/-- R55: a CANCEL of a ticket the queue does not hold. -/
theorem test_unmatched_cancel : (after (.cancel [2, 0, 9]) busy).mgmt.counter .unmatchedCancels = 1 := by decide +kernel

/-- R63: the RECALL notice flushes the enabled kiosks of its zones. -/
theorem test_notice_flushes : (after (.noticeOn 1) busy).queue 2 = [] := by decide +kernel

/-- R166: the tick that brings the loss countdown to 0 asserts loss, and a good frame ends it. -/
theorem test_loss_asserted : (after .dispatchLost (site.setLoss { asserted := false, countdown := 1 })).loss.asserted = true := by
  decide +kernel
theorem test_loss_ended :
    (after (.stateReadNode .own 1) State.reset).loss = { asserted := false, countdown := 20 } := by decide +kernel

/-- R170: the REPLY to ADDRESS SET carries the new address as its source. -/
theorem test_address_set :
    (after (.addressSet .own 9 [17]) site).up.tx.map (fun x => match x with | .reply f => f.source | _ => 0) = some 17 := by
  decide +kernel

/-- R173: an entry of the cadence table is stored as its CRC-8 passes, and one whose CRC-8 fails is not. -/
theorem test_table_write :
    ((after (.tableWrite .all 0 ([10, 1] ++ entriesOnLine [[2, 0, 0x01, 0x2C, 0x00, 0xC8]])) site).cadenceEntry 1).limitA = 300 := by
  decide +kernel
theorem test_table_write_bad_check :
    let t := after (.tableWrite .all 0 [10, 1, 2, 0, 0x01, 0x2C, 0x00, 0xC8, 0x00]) site
    (t.cadenceEntry 1).limitA = 0 ∧ t.mgmt.flags.getLsbD AlertId.entryCheckFailed.bit = true := by decide +kernel

/-- R138: the address after the last served one is picked first; here that is panel 0 after address 14. -/
theorem test_pick_begins_sequence :
    ((after (.schedulerPick 0) site).link 0).sequence.map (fun q => q.panel) = some 0 := by decide +kernel

/-- R142 to R144: the third miss in a row makes the panel faulted. -/
theorem test_third_miss_faults :
    ((after (.replyWindowEnd 0) (awaiting.setHealth 0 { Health.powerOn with misses := 2 })).healthOf 0).faulted = true := by
  decide +kernel

/-- R154: an echo with one byte changed counts one error byte, and the window's last frame ends the run DONE. -/
theorem test_echo_error :
    let bytes := 0x03 :: ((Gen.take 16 Pattern.p7.seed).2).drop 1
    let t := after (.echo 1 (echoFrame 0 bytes)) exercising
    t.exercise.errorBytes = 1 ∧ t.exercise.firstError = some 256 ∧ t.exercise.state = .done := by decide +kernel

/-- R168: a pending REPLY goes before kept frames. -/
theorem test_reply_first :
    let u := { Up.powerOn with reply := some someReply, tx := some (.returned 0), order := [1] }
    (after .uTransmitEnd (site.setUp u)).up.tx = some (.reply someReply) := by decide +kernel

/-- R163: a frame to another node is forwarded on C. -/
theorem test_forwarded :
    (after (.forwardingDecision 0x20 5) site).cport.line = [.start, .data 0x20, .data 5] := by decide +kernel

/-- R104, R112: a composition that only drops lines above a lowered line count keeps the version, and the lines leave. -/
theorem test_lowered_line_count :
    let line : Line := { text := [], arrow := .none, blink := .ct 1 }
    let c (n : Nat) : Content := { (site.content 0).content with lines := List.replicate n line }
    let r := (commitContent 0 (c 1) (site.setContent 0 { site.content 0 with content := c 2 })).content 0
    r.content.lines = [line] ∧ r.version = 0 := by decide +kernel

/-- R164: enough IDLE characters from U behind a full delay line absorb its extra three. -/
theorem test_idle_absorbs_the_extra :
    let full := site.setCPort { CPort.powerOn with line := List.replicate 6 (.data 0), extra := 3 }
    let t := after (.entryCrc8Arrives (List.replicate 9 .idle)) full
    t.cport.extra = 0 ∧ t.cport.line = List.replicate 3 .idle := by decide +kernel

/-- R173: a TABLE WRITE of table 11 that an ABORT breaks before its start index leaves the open write; with a start index it
closes it. -/
theorem test_broken_bad_table :
    let s := openAt (site.setRx { URx.outside with inFrame := true, data := [kindTableWrite, 63], target := some .all })
    (after (.brokenFrame [.data 1, .data 11] .abort) s).mgmt.openWrite.isSome = true
      ∧ (after (.brokenFrame [.data 1, .data 11, .idle, .data 0] .abort) s).mgmt.openWrite = none := by decide +kernel

/-- R173, R176: with a REPLY pending a TABLE WRITE of table id 10 alone leaves the open write, and of 11 closes it. -/
theorem test_refused_table_id :
    let s := openAt (site.setUp { Up.powerOn with reply := some someReply })
    (after (.tableWrite .own 1 [10]) s).mgmt.openWrite.isSome = true
      ∧ (after (.tableWrite .own 1 [11]) s).mgmt.openWrite = none := by decide +kernel

/-- R164: an IDLE of the broken frame still ahead of the ABORT goes out, and the line keeps its extra character. -/
theorem test_start_break_behind_idle :
    let s := (site.setRx { URx.outside with inFrame := true, data := [1, 64], target := some .operational }).setCPort
      { CPort.powerOn with line := [.data 64, .idle, .data 7] }
    let t := after (.noticeOff 0) s
    t.cport.extra = 1 ∧ t.cport.sent.take 5 = [.data 64, .idle, .data 7, .abort, .start] := by decide +kernel

/-- R34, R36, R39: car 5 opens at floor 40 upward: the lantern of panel 30 becomes ARRIVED and asks for its chime. -/
theorem test_lantern_arrives :
    ((after (.carState (carStatePayload 5 0x02 0x75 0xB0 0 0 .opening .normal .up 255)) darkLantern).lantern 30).map
        (fun k => (k.state, k.chime)) = some (.arrived, .up) := by decide +kernel

/-- R168, R174: the ALERT that a failing entry raises begins at once, and the REPLY waits behind it; a START that saturates the broken
frames counter has its ALERT begun before the REPLY of the frame it begins. -/
theorem test_alert_before_reply :
    let alerting (t : State) : Bool := match t.up.tx with
      | some (.alert _) => t.up.reply.isSome && !t.mgmt.alertPending
      | _ => false
    let breaking := { site with
      rx := { URx.outside with inFrame := true, data := [1] }
      mgmt := { site.mgmt with counters := site.mgmt.counters.set CounterId.brokenFrames.index 65534 } }
    alerting (after (.tableWrite .own 1 ([10, 3] ++ cadenceBytes ++ [crc8 cadenceBytes + 1])) site) = true
      ∧ alerting (after (.stateReadNode .own 1) breaking) = true := by decide +kernel

/-- R176: an entry of a TABLE CONTINUE with no write open is checked and not stored: a failing CRC-8 raises the flag, a passing one
does not. -/
theorem test_unstored_entries :
    (after (.entryCrc8Arrives ((cadenceBytes ++ [crc8 cadenceBytes + 1]).map .data)) checking).mgmt.flags
        = AlertId.entryCheckFailed.mask
      ∧ (after (.entryCrc8Arrives ((cadenceBytes ++ [crc8 cadenceBytes]).map .data)) checking).mgmt.flags = 0 := by decide +kernel

/-- R36: a stale car recovers moving within the level window of the floor it held open, its entrance CLOSING: the event's frame
yields no CLOSING there, and the lantern is dark. -/
theorem test_recovering_car_leaves :
    let s := litLantern.setCar 5 { litLantern.car 5 with stale := true, snapPending := true }
    let t := after (.carState (carStatePayload 5 0x02 0x75 0xB0 0x01 0x2C .closing .normal .up 255)) s
    (t.deckRec 5 .lower).atFloor = true ∧ (t.lantern 30).map Lantern.state = some .dark := by decide +kernel

/-- R43: the car becomes stale, and its lantern dark. -/
theorem test_stale_car_darkens :
    ((after (.carStale 5) litLantern).lantern 30).map Lantern.state = some .dark := by decide +kernel

/-- R169: straps of 63 stand for address 62. -/
theorem test_straps_63 : (after (.powerOnReset 63) site).mgmt.address = 62 := by decide +kernel

/-! ### Witnesses: for each obligation with hypotheses, a case that meets them -/

theorem takesOwn {s : State} (h : s.inReset = false) (k : s.up.reply = none) (a : s.mgmt.address ≤ 62) : s.Takes .own :=
  ⟨h, fun _ => ⟨k, a⟩⟩
theorem takesAll {s : State} (h : s.inReset = false) : s.Takes .all := ⟨h, fun h' => by cases h'⟩
theorem siteTakesOwn : site.Takes .own := takesOwn rfl rfl (by decide)
theorem siteTakesAll : site.Takes .all := takesAll rfl
/-- The site at the highest address a frame can name. -/
def site62 : State := { site with mgmt := { site.mgmt with address := 62 } }
theorem site62TakesOwn : site62.Takes .own := takesOwn rfl rfl (by decide)

theorem witness_StepRunsTheFrontCommand : State.reset.pending = [] := rfl

theorem witness_ResetPinAndPowerOn :
    { State.reset with inReset := true }.inReset = true ∧ (∀ straps, Instr.baseTick ≠ .powerOnReset straps)
      ∧ Instr.baseTick ≠ .resetPinLow := ⟨rfl, nofun, nofun⟩

theorem witness_NodeResetClearsAndKeeps :
    site62.Takes .own ∧ site.Takes .all ∧ sending.Takes .all ∧ sending.Sending 0 ∧ ¬site.Sending 0 := by
  refine ⟨site62TakesOwn, siteTakesAll, takesAll rfl, ?_⟩
  unfold State.Sending
  decide +kernel

theorem witness_BaseTickCountsTheTimers :
    (site.setBaseCount 98).inReset = false ∧ (site.setBaseCount 98).baseCount + 1 < 100
      ∧ (site.setBaseCount 99).inReset = false ∧ 100 ≤ (site.setBaseCount 99).baseCount + 1 := by decide +kernel

/-- A running timer 0. -/
def timing (count : Nat) (phase : Phase) (e : CadenceEntry) : State :=
  { site with tables := { siteTables with cadence := siteTables.cadence.set 0 e } }.setTimer 0
    { Timer.powerOn with count := count, phase := phase, running := true }

theorem witness_LimitEventTogglesOrEndsCycle :
    let e := siteTables.cadence[0]
    let single := { e with mode := .single, limitA := 0 }
    [(2, Phase.a, e), (1, .b, e), (65535, .a, single)].all (fun (n, ph, e) =>
      let s := timing n ph e
      let limit := if (s.cadenceEntry 0).mode = .alternate ∧ (s.timer 0).phase = .b then (s.cadenceEntry 0).limitB
        else (s.cadenceEntry 0).limitA
      decide (s.inReset = false ∧ (s.timer 0).running = true ∧ (s.cadenceEntry 0).mode ≠ .off
        ∧ (s.timer 0).count + 1 = if limit = 0 then 65536 else limit)) = true := by decide +kernel

theorem witness_HousekeepingTickAgesCarsLossAndPanels :
    site.inReset = false ∧ State.reset.inReset = false ∧ (site.setLoss { asserted := false, countdown := 1 }).inReset = false
      ∧ (site.setLoss { asserted := false, countdown := 1 }).loss.countdown ≤ 1 := by decide +kernel

theorem witness_HousekeepingTickAgesPrompts : busy.inReset = false ∧ busy.queue 2 = [promptTo41] := by decide +kernel

theorem witness_TickEventsOneByOne :
    let kept := (site.setContent 0 { site.content 0 with acked := some 0 }).setHealth 0 { Health.powerOn with keepAlive := 1 }
    let faulted := site.setHealth 0 { Health.powerOn with faulted := true, retry := 1 }
    let near := site.setLoss { asserted := false, countdown := 1 }
    (busy.inReset = false ∧ (busy.car 5).present = true ∧ (busy.car 5).stale = false ∧ (busy.car 5).staleCountdown ≤ 1)
      ∧ (∃ r ∈ busy.queue 2, r.ticket = 0x044D ∧ r.hold ≤ 1) ∧ (∃ r ∈ busy.queue 2, r.ticket = 0x044D ∧ r.marker = 1)
      ∧ (near.inReset = false ∧ near.loss.asserted = false ∧ near.loss.countdown ≤ 1)
      ∧ (kept.inReset = false ∧ (kept.panelEntry 0).enabled = true ∧ (kept.healthOf 0).faulted = false
          ∧ (kept.content 0).acked = some (kept.content 0).version ∧ (kept.healthOf 0).keepAlive = 1)
      ∧ (litLantern.inReset = false ∧ (litLantern.car 5).present = true ∧ (litLantern.car 5).stale = false
          ∧ (litLantern.car 5).staleCountdown ≤ 1 ∧ ∃ k, litLantern.lantern 30 = some k ∧ k.car = 5 ∧ k.state ≠ .dark)
      ∧ darkLantern.lantern 30 = some lantern40 ∧ lantern40.chime = .none
      ∧ faulted.inReset = false ∧ (faulted.panelEntry 0).enabled = true ∧ (faulted.healthOf 0).faulted = true
      ∧ (faulted.healthOf 0).retry = 1 := by decide +kernel

theorem witness_CarStateIsStoredInRange : site.inReset = false ∧ (site.carEntry 5).enabled = true := by decide +kernel

theorem witness_CarStateDecidesFloorsAndLanterns :
    busy.inReset = false ∧ (busy.carEntry 5).enabled = true ∧ (busy.carEntry 6).enabled = true ∧ busy.doubleDeck 6 = true
      ∧ ((busy.car 5).deck .lower).floor = some 40 ∧ (busy.car 5).snapPending = false
      ∧ (darkLantern.inReset = false ∧ (darkLantern.carEntry 5).enabled = true ∧ darkLantern.lantern 30 = some lantern40
          ∧ lantern40.car = 5 ∧ lantern40.chime = .none)
      ∧ (litLantern.lantern 30).map (fun k => (k.car, k.state)) = some (5, .arrived) ∧ litLantern.lantern 0 = none
      ∧ (darkLantern.timer 0).armed = false := by decide +kernel

theorem witness_SnapTakesTheNearestCandidate :
    (∀ f, State.reset.candidate 5 f = false) ∧ ∃ f, site.candidate 5 f = true := by decide +kernel

/-- Car 5 climbing past 160,500 at 6,000 mm/s. -/
def climbing : State := site.setCar 5 { carAt40 with position := 160500, velocity := 6000 }

theorem witness_TrackingHeadsForTheNearest :
    (∀ f, State.reset.candidate 5 f = false) ∧ ∃ f, climbing.candidate 5 f = true := by decide +kernel

/-- D 40 with C 41 steps; D 41 with C 40 and an upward velocity stays. -/
theorem witness_TrackingStepsByHysteresis :
    let low := site.setCar 5 { carAt40 with position := 157500, velocity := 6000 }
    nearest (climbing.candidate 5) climbing.level (climbing.expected 5 .lower) true = some 41
      ∧ ¬(climbing.moving 5 = true ∧ (((41 : FloorIx) < 40 ∧ (0 : Int) < 6000) ∨ ((40 : FloorIx) < 41 ∧ (6000 : Int) < 0)))
      ∧ nearest (low.candidate 5) low.level (low.expected 5 .lower) true = some 40
      ∧ low.moving 5 = true ∧ (40 : FloorIx) < 41 ∧ (0 : Int) < (low.car 5).velocity := by decide +kernel

theorem witness_EntrancesOpenCloseAndBoard :
    busy.inReset = false ∧ (busy.carEntry 5).enabled = true ∧ busy.doubleDeck 5 = false ∧ (busy.car 5).upper.openFloor = none
      ∧ (busy.car 5).lower.openFloor = some 40 ∧ (busy.car 5).mode = .normal ∧ (busy.carEntry 6).enabled = true
      ∧ busy.doubleDeck 6 = true := by decide +kernel

theorem witness_ServiceModeWithdrawsAndRestores :
    let s := busy.setCar 5 { carAt40 with entrance := .closed, lower := { DeckRec.powerOn with floor := some 40 } }
    s.inReset = false ∧ (s.carEntry 5).enabled = true ∧ Entrance.closed ≠ .open ∧ (s.car 5).lower.openFloor = none
      ∧ (s.car 5).upper.openFloor = none := by decide +kernel

/-- The state with one command waiting, which a step takes. -/
def ticking (s : State) : State := { s with pending := [.baseTick] }

/-- The site with the RECALL notice on: zones 0 and 1 are covered. -/
def recalled : State := ticking (composed (site.setActive 1 true))

theorem witness_BadOperationalFramesAreDropped :
    site.inReset = false ∧ ([0, 0, 0, 0, 0, 0, 0, 0, 0] : List Byte).length ≠ 10 ∧ (site.carEntry 0).enabled = false
      ∧ 24 ≤ (24 : Byte).toNat ∧ 4 ≤ (4 : Byte).toNat ∧ 5 ≤ (5 : Byte).toNat ∧ 3 ≤ (3 : Byte).toNat
      ∧ 32 ≤ (32 : Byte).toNat ∧ (site.kioskEntry 0).enabled = false ∧ 160 ≤ (160 : Byte).toNat
      ∧ recalled.inReset = false ∧ (recalled.kioskEntry 5).enabled = true
      ∧ recalled.zoneClosed (recalled.kioskEntry 5).zone = true ∧ 16 ≤ (16 : Byte).toNat
      ∧ (site.noticeEntry 0).enabled = false := by decide +kernel

/-- A full queue. -/
def fullQueue : State :=
  site.setQueue 2 ((List.range 8).map fun i => { promptTo41 with ticket := BitVec.ofNat 16 i })

theorem witness_AssignPlacesOrMovesAPrompt :
    (fullQueue.inReset = false ∧ (fullQueue.kioskEntry 2).enabled = true
        ∧ fullQueue.zoneClosed (fullQueue.kioskEntry 2).zone = false ∧ (fullQueue.queue 2).length ≤ 8
        ∧ (∀ r ∈ fullQueue.queue 2, r.ticket ≠ ((0x00 : Byte) ++ (0x08 : Byte) : BitVec 16)))
      ∧ busy.inReset = false ∧ (busy.kioskEntry 2).enabled = true ∧ busy.zoneClosed (busy.kioskEntry 2).zone = false
      ∧ ((busy.queue 2).map Prompt.ticket).Nodup ∧ promptTo41 ∈ busy.queue 2
      ∧ promptTo41.ticket = ((0x04 : Byte) ++ (0x4D : Byte) : BitVec 16) := by decide +kernel

theorem witness_CancelRemovesThePrompt :
    busy.inReset = false ∧ (∃ r ∈ busy.queue 2, r.ticket = ((0x04 : Byte) ++ (0x4D : Byte) : BitVec 16))
      ∧ ¬∃ r ∈ busy.queue 2, r.ticket = ((0x04 : Byte) ++ (0x4E : Byte) : BitVec 16) := by decide +kernel

theorem witness_NoticesJoinAndLeave :
    busy.inReset = false ∧ (busy.noticeEntry 1).enabled = true ∧ busy.isActive 1 = false
      ∧ recalled.inReset = false ∧ (recalled.noticeEntry 1).enabled = true ∧ recalled.isActive 1 = true := by decide +kernel

theorem siteTablesOk : siteTables.Ok := by
  unfold Tables.Ok Profile.Ok FloorEntry.Ok CarEntry.Ok KioskEntry.Ok PanelEntry.Ok Route.Ok NoticeEntry.Ok CadenceEntry.Ok textOk
  refine ⟨?_, ?_, ?_, ?_, ?_, ?_, ?_, ?_, ?_, ?_⟩ <;> decide +kernel

theorem witness_GraveNoticeIsShown :
    recalled.tables.Ok ∧ recalled.ContentsFresh ∧ (recalled.panelEntry 0).enabled = true
      ∧ ∃ n, recalled.covers n 0 = true
          ∧ ((recalled.noticeEntry n).cls = .evacuation ∨ (recalled.noticeEntry n).cls = .recall) := by
  refine ⟨?_, ?_, by decide +kernel, 1, by decide +kernel, by decide +kernel⟩
  · have h : recalled.tables = siteTables := by simp [recalled, ticking, composed, site]
    rw [h]
    exact siteTablesOk
  · unfold State.ContentsFresh
    decide +kernel

theorem witness_CadenceSyncRestartsNamedTimers : site.inReset = false := rfl

/-- A REPLY pending behind another on U. -/
def replying : State := site.setUp { Up.powerOn with reply := some someReply, tx := some (.reply someReply) }

theorem witness_RequestsRefused :
    replying.inReset = false ∧ replying.mgmt.address ≤ 62 ∧ replying.up.reply.isSome = true ∧ replying.up.tx.isSome = true
      ∧ (longPayload.drop 1).length ≤ 248 ∧ (10 : Byte).toNat < 11 ∧ 11 ≤ (11 : Byte).toNat ∧ replying.mgmt.openWrite = none
      ∧ 3 < entryCount 10 ∧ cadenceBytes.length = entrySize 10 ∧ 2 + (entriesOnLine [cadenceBytes]).length ≤ 248
      ∧ (openAt replying).mgmt.openWrite = some { table := 10, pointer := 3 }
      ∧ site.inReset = false ∧ site.Takes .own ∧ ([1, 2] : List Byte).length ≠ 3 :=
  ⟨rfl, by decide, rfl, rfl, by decide +kernel, by decide, by decide, rfl, by decide, by decide, by decide, rfl, rfl, siteTakesOwn
  , by decide⟩

theorem witness_AddressSetTakesTheAddress : site62.Takes .own ∧ (62 : Byte).toNat ≤ 62 ∧ 63 ≤ (63 : Byte).toNat :=
  ⟨site62TakesOwn, by decide, by decide⟩

theorem witness_BankSelectIsAdoptedAtBoundaries :
    site.Takes .own ∧ site.Takes .all ∧ (0 : Byte).toNat = Bank.a.code ∧ (1 : Byte).toNat = Bank.b.code
      ∧ 2 ≤ (2 : Byte).toNat := ⟨siteTakesOwn, siteTakesAll, by decide, by decide, by decide⟩

theorem witness_TableReadReturnsEntries :
    site.Takes .own ∧ 11 ≤ (11 : Byte).toNat ∧ (10 : Byte).toNat = (10 : Fin 11).val ∧ entryCount 10 ≤ (4 : Byte).toNat
      ∧ (3 : Byte).toNat < entryCount 10 ∧ (0 : Byte).toNat = 0 ∧ 0 < (1 : Byte).toNat :=
  ⟨siteTakesOwn, by decide, by decide, by decide, by decide, by decide, by decide⟩

theorem witness_StateReadsReport :
    site.Takes .own ∧ (23 : Byte).toNat = (23 : CarIx).val ∧ 24 ≤ (24 : Byte).toNat ∧ (31 : Byte).toNat = (31 : KioskIx).val
      ∧ 32 ≤ (32 : Byte).toNat := ⟨siteTakesOwn, by decide, by decide, by decide, by decide⟩

theorem witness_PanelsReadClearsDeltas :
    site.Takes .own ∧ 120 ≤ (120 : Byte).toNat ∧ (119 : Byte).toNat < 120 ∧ (0 : Byte).toNat = 0 ∧ 15 < (16 : Byte).toNat
      ∧ 0 < (15 : Byte).toNat ∧ (15 : Byte).toNat ≤ 15 :=
  ⟨siteTakesOwn, by decide, by decide, by decide, by decide, by decide, by decide⟩

theorem witness_CounterReadsReportAndClear : site.Takes .own := siteTakesOwn

theorem witness_AlertMaskAndClear : site.Takes .own ∧ site.Takes .all := ⟨siteTakesOwn, siteTakesAll⟩

/-- Panel 0's content is urgent and not yet acknowledged so. -/
def urgentSite : State :=
  site.setContent 0 { site.content 0 with content := { (site.content 0).content with urgent := true } }

theorem witness_ExerciseStartBeginsOrWaits :
    site.Takes .own ∧ awaiting.Takes .all ∧ urgentSite.Takes .all ∧ site.exercise.state ≠ .running
      ∧ site.exercise.startPending = false ∧ (site.panelEntry (panelAt 0 0)).enabled = true ∧ site.adoptionPending 0 = false
      ∧ site.loss.asserted = false ∧ (site.link 0).sequence = none ∧ site.urgentWork 0 = false
      ∧ (awaiting.link 0).sequence ≠ none ∧ awaiting.adoptionPending 0 = false ∧ (urgentSite.link 0).sequence = none
      ∧ urgentSite.urgentWork 0 = true := by
  refine ⟨siteTakesOwn, takesAll rfl, takesAll rfl, ?_⟩
  decide +kernel

/-- A START that waits. -/
def startWaits : State := site.setExercise { Exercise.powerOn with startPending := true }

theorem witness_ExerciseRefusalsAndStop :
    site.Takes .own ∧ site.loss.asserted = false ∧ exercising.Takes .all ∧ exercising.exercise.state = .running
      ∧ exercising.exercise.endRequested = false ∧ startWaits.Takes .all ∧ startWaits.exercise.startPending = true
      ∧ 8 ≤ (8 : Byte).toNat ∧ 15 ≤ (15 : Byte).toNat ∧ 3 ≤ (3 : Byte).toNat ∧ 5 ≤ (5 : Byte).toNat
      ∧ (site.panelEntry (panelAt 0 1)).enabled = false := by
  refine ⟨siteTakesOwn, rfl, takesAll rfl, rfl, rfl, takesAll rfl, rfl, ?_⟩
  decide +kernel

theorem witness_TableWriteStoresItsEntries :
    (∀ T ∈ [(1 : Fin 11), 2, 3, 4, 5, 9, 10], (site.tables.entryBytes T 0).length = entrySize T ∧ 0 < entryCount T
        ∧ 2 + (entriesOnLine [site.tables.entryBytes T 0]).length ≤ 248)
      ∧ site.Takes .own ∧ 3 < entryCount 10 ∧ (∀ e ∈ [cadenceBytes, cadenceBytes], e.length = entrySize 10)
      ∧ 2 + (entriesOnLine [cadenceBytes, cadenceBytes]).length ≤ 248 ∧ (openAt site).Takes .all
      ∧ (openAt site).mgmt.openWrite = some { table := 10, pointer := 3 } :=
  ⟨by decide +kernel, siteTakesOwn, by decide, by decide, by decide, takesAll rfl, rfl⟩

theorem witness_TableWriteStopsShort :
    site.Takes .own ∧ site.Takes .all ∧ cadenceBytes.length = entrySize 10 ∧ crc8 cadenceBytes ≠ 0
      ∧ ([byteOf 10, byteOf 3] ++ entriesOnLine [cadenceBytes] ++ cadenceBytes ++ [0] ++ [1, 2]).length ≤ 248
      ∧ 1 ≤ (cadenceBytes.take 1).length ∧ cadenceBytes.length ≤ entrySize 10
      ∧ 11 ≤ (11 : Byte).toNat ∧ entryCount 10 ≤ (4 : Byte).toNat ∧ ([0] : List Byte).length < 2
      ∧ site.mgmt.openWrite = none
      ∧ site.up.tx = none ∧ site.up.reply = none ∧ site.up.order = [] ∧ site.breaksNow = 0
      ∧ site.mgmt.mask.getLsbD AlertId.entryCheckFailed.bit = true ∧ ¬site.flag .entryCheckFailed
      ∧ site.loss.asserted = false ∧ site.mgmt.counter .goodFrames ≠ 65534 := by
  refine ⟨siteTakesOwn, siteTakesAll, ?_⟩
  unfold State.flag
  decide +kernel

/-- With no write open, whatever table the free value names (log 16), an entry that fails its check. -/
theorem witness_TableWriteStopsShort_unstored :
    ∃ (T : Fin 11) (bad : List Byte) (check : Byte), site.mgmt.openWrite = none ∧ Config.closedTable site.draws = T
      ∧ bad.length = entrySize T ∧ crc8 bad ≠ check ∧ bad.length ≤ entrySize T
      ∧ (entriesOnLine [] ++ bad ++ [check] ++ [1]).length ≤ 248 :=
  ⟨_, List.replicate (entrySize (Config.closedTable site.draws)) 0, 1, rfl, rfl, by
    generalize Config.closedTable site.draws = T
    revert T
    decide +kernel⟩

theorem witness_StoreKeepsTablesWhole : siteTables.Ok ∧ 3 < entryCount 10 := ⟨siteTablesOk, by decide⟩

theorem witness_StoredEntriesReadBack : siteTables.Ok ∧ 159 < entryCount 1 := ⟨siteTablesOk, by decide⟩

theorem witness_ForwardingFollowsTheTarget :
    site.inReset = false ∧ site.rx.inFrame = false ∧ site.cport.extra = 0 ∧ site.cport.line.length ≤ 3 ∧ site.DelayOk
      ∧ continuing.inReset = false ∧ continuing.DelayOk ∧ continuing.rx.target.isSome = true
      ∧ 3 + continuing.cport.extra < 4 := by
  unfold State.DelayOk
  decide +kernel

/-- The characters of a good frame, with an IDLE before its END. -/
theorem witness_FrameCompleteJudgesTheFrame :
    site.inReset = false ∧ site.rx.inFrame = false ∧ ([1, 2, 3, 4] : List Byte).length < 5
      ∧ dataOf ((withCrc [1, 64, 0, 0]).map .data ++ [.idle]) = withCrc [1, 64, 0, 0]
      ∧ ((0x1F : Byte).toNat < 0x20 ∧ 0x2B < (0x2C : Byte).toNat ∧ (0 : Byte).toNat = site.mgmt.address ∧ site.up.reply = none)
      ∧ (withCrc [0x2C, 0, 7]).length ≤ 253 ∧ replying.up.reply.isSome = true
      ∧ crcPasses (withCrc [1, 64, 0, 0]) = true ∧ (withCrc [1, 64, 0, 0]).length ≤ 253 ∧ (62 : Byte).toNat ≤ 62
      ∧ (62 : Byte).toNat ≠ site.mgmt.address ∧ 65 ≤ (65 : Byte).toNat ∧ 6 ≤ (6 : Byte).toNat := by decide +kernel

theorem witness_BrokenFramesAreCounted :
    site.inReset = false ∧ BreakCause.abort ≠ .start ∧ site.rx.inFrame = false ∧ (dataOf [.data 1, .idle]).length < 5
      ∧ (site.setRx { URx.outside with inFrame := true, data := [1, 64], target := some .operational }).rx.forwarding = true := by
  decide +kernel

theorem witness_WriteCharactersActAsTheyArrive :
    (site62.inReset = false ∧ site62.rx.inFrame = false ∧ site62.mgmt.address ≤ 62)
      ∧ dataOf (cadenceBytes.map .data ++ [.idle, .data 7]) = cadenceBytes ++ [7] ∧ continuing.inReset = false ∧ continuing.rx.inFrame = true ∧ continuing.rx.data.head? = some kindTableContinue
      ∧ continuing.rx.target = some .all ∧ 3 ≤ continuing.rx.data.length
      ∧ continuing.rx.data.length + cadenceBytes.length + 1 ≤ 253 ∧ continuing.rx.write.stage = .entries
      ∧ continuing.rx.write.buf = [] ∧ continuing.mgmt.openWrite = some { table := 10, pointer := 3 }
      ∧ 3 < entryCount 10 ∧ cadenceBytes.length = entrySize 10
      ∧ checking.inReset = false ∧ checking.rx.inFrame = true ∧ checking.rx.data.head? = some kindTableContinue
      ∧ checking.rx.target = some .all ∧ 3 ≤ checking.rx.data.length ∧ checking.rx.data.length + cadenceBytes.length + 1 ≤ 253
      ∧ checking.rx.write.stage = .noWrite 6 ∧ checking.rx.write.buf = [] ∧ cadenceBytes.length = 6 := by decide +kernel

/-- Outside a frame, inside one whose target has arrived, and behind a START alone. -/
theorem witness_WholeFrameIsItsCharacters :
    let started := site.setRx { URx.outside with inFrame := true, blanked := true }
    (site.inReset = false ∧ site.rx.inFrame = false) ∧ (continuing.inReset = false ∧ continuing.rx.data ≠ [])
      ∧ (started.inReset = false ∧ started.rx = { URx.outside with inFrame := true, blanked := started.rx.blanked })
      ∧ (longPayload.drop 1).length ≤ 248 := by decide +kernel

/-- The C receiver inside a return frame, in slot 1. -/
def receiving : State := site.setUp { Up.powerOn with crx := .receiving 1, slots := Up.powerOn.slots.set 1 .receiving }

theorem witness_ReturnFramesAreKeptOrDropped :
    let data := withCrc [0x40, 1, 2]
    site.inReset = false ∧ site.up.crx = .outside ∧ site.up.freeSlot = some 0 ∧ 5 ≤ data.length ∧ data.length ≤ 253
      ∧ crcPasses data = true ∧ data.head? = some 0x40 ∧ receiving.inReset = false ∧ receiving.up.crx = .receiving 1 := by
  decide +kernel

theorem witness_UTransmitterPicksInOrder :
    let s := site.setUp { Up.powerOn with tx := some (.returned 0), order := [1] }
    s.inReset = false ∧ s.up.tx = some (.returned 0) ∧ Instr.baseTick ≠ .uTransmitEnd ∧ Instr.baseTick ≠ .resetPinLow
      ∧ (∀ straps, Instr.baseTick ≠ .powerOnReset straps) ∧ ∃ t, exec .baseTick s = .next t :=
  ⟨rfl, rfl, nofun, nofun, nofun, _, rfl⟩

theorem witness_SchedulerPickServesTheFirstClass :
    site.inReset = false ∧ (site.link 0).free = true ∧ (sending.link 0).free = false := by decide +kernel

/-- A PHASE frame, and an ABORT, on PL1. -/
def phaseOn (s : State) : State := s.setLink 1 { s.link 1 with phaseOnLine := some [] }
def abortOn (s : State) : State := s.setLink 1 { s.link 1 with aborting := true }

theorem witness_FramesSentOnALine :
    (sending.inReset = false ∧ (sending.link 0).activity = .sendingSequence ∧ (sending.link 0).sequence.isSome = true)
      ∧ exercising.exerciseInFlight 1 = true
      ∧ (((phaseOn exercising).link 1).phaseOnLine.isSome = true ∧ (phaseOn exercising).runs 1 = true
          ∧ ((phaseOn exercising).link 1).activity = .exercise)
      ∧ (((phaseOn site).link 1).phaseOnLine.isSome = true ∧ (phaseOn site).runs 1 = false
          ∧ (phaseOn site).adoptionPending 1 = false ∧ (phaseOn site).exercise.startPending = false)
      ∧ (((abortOn exercising).link 1).aborting = true ∧ (abortOn exercising).runs 1 = true)
      ∧ ((abortOn site).link 1).aborting = true ∧ (abortOn site).runs 1 = false := by decide +kernel

theorem witness_MissedSequenceCountsAgainstThePanel :
    awaiting.inReset = false ∧ (awaiting.link 0).activity = .awaitingAck ∧ (awaiting.link 0).sequence = some sequence0
      ∧ ¬isAckOf sequence0.panel [] := ⟨rfl, by decide +kernel, by decide +kernel, fun h => by simpa using h.2.1⟩

/-- The lantern's chime of version 0 pending on panel 30, a sequence to it of that version awaiting its ACK. -/
def chiming : State :=
  litLantern.setLink 2
    { Link.powerOn with activity := .awaitingAck, sequence := some { sequence0 with panel := 30, version := 0, kind := .lantern } }

theorem witness_AckUpdatesThePanel :
    (awaiting.inReset = false ∧ (awaiting.link 0).activity = .awaitingAck ∧ (awaiting.link 0).sequence = some sequence0
        ∧ isAckOf sequence0.panel (ackFrame 0 7 0 0) ∧ awaiting.lineUnclaimed 0 ∧ awaiting.lantern 0 = none)
      ∧ chiming.inReset = false ∧ (chiming.link 2).activity = .awaitingAck ∧ chiming.lineUnclaimed 2
      ∧ (chiming.link 2).sequence.map Sequence.panel = some 30 ∧ isAckOf 30 (ackFrame 0 0 1 0)
      ∧ ∃ k, chiming.lantern 30 = some k ∧ k.Covers 0 (chiming.content 30).version := by
  unfold isAckOf State.lineUnclaimed
  refine ⟨by decide +kernel, by decide +kernel, by decide +kernel, by decide +kernel, by decide +kernel, by decide +kernel, _, rfl,
    by decide, 0, rfl, .inr (by decide +kernel)⟩

theorem witness_EchoIsCompared :
    let sent := (Gen.take 16 Pattern.p7.seed).2
    exercising.inReset = false ∧ (exercising.link 1).activity = .exercise ∧ exercising.runs 1 = true
      ∧ exercising.exercise.flight = some sent ∧ sent.length = 16 ∧ exercising.exercise.awaiting = true
      ∧ exercising.exercise.startPending = false ∧ exercising.adoptionPending 1 = false
      ∧ exercising.exercise.window.frames = some exercising.exercise.framesSent ∧ isEchoOf 0 (echoFrame 0 sent) := by
  unfold isEchoOf
  decide +kernel

/-! ### Witnesses of the laws every step keeps -/

theorem step_ticking (s : State) : ∃ t, step (ticking s) = .next t := ⟨_, rfl⟩

/-- Counters at their limit and a flag newly raised. -/
def countedOut : State :=
  { site with mgmt := { site.mgmt with counters := .replicate 16 65535, flags := 1, newly := 1 } }

theorem witness_CountersAndNewlyRaisedStaySound :
    (ticking countedOut).CountersBounded ∧ (ticking countedOut).NewlyRaisedOk ∧ ∃ t, step (ticking countedOut) = .next t := by
  refine ⟨?_, ?_, step_ticking _⟩
  · unfold State.CountersBounded
    decide +kernel
  · unfold State.NewlyRaisedOk
    decide +kernel

theorem witness_QueuesAndNoticesStaySound :
    (ticking fullQueue).QueuesOk ∧ (ticking fullQueue).ClosedKiosksEmpty ∧ (ticking fullQueue).ActiveEnabled
      ∧ ∃ t, step (ticking fullQueue) = .next t := by
  refine ⟨?_, ?_, ?_, step_ticking _⟩
  · unfold State.QueuesOk
    decide +kernel
  · unfold State.ClosedKiosksEmpty
    decide +kernel
  · unfold State.ActiveEnabled
    decide +kernel

theorem witness_DisplayedFloorsStayCandidates : (ticking busy).CarsOk ∧ ∃ t, step (ticking busy) = .next t := by
  refine ⟨?_, step_ticking _⟩
  unfold State.CarsOk State.FloorOk
  decide +kernel

theorem witness_TimersLossAndPortsStaySound :
    let s := ticking (openAt (timing 2 .a siteTables.cadence[0]))
    s.TimersOk ∧ s.LossOk ∧ s.DelayOk ∧ s.OpenWriteOk ∧ ∃ t, step s = .next t := by
  refine ⟨?_, ?_, ⟨by decide, by decide⟩, ?_, step_ticking _⟩
  · unfold State.TimersOk
    decide +kernel
  · unfold State.LossOk
    decide +kernel
  · intro w h
    cases h
    decide

theorem site_link (l : LinkIx) : site.link l = Link.powerOn := by
  simp [State.link, site, State.reset, State.powerOn]

/-- A sequence to panel 0 on PL0, and nothing on the other links, is consistent. -/
theorem linksOk_of_sequence0 {k : Link} (h : k.sequence = some sequence0) (a : k.aborting = false) (ph : k.phaseOnLine = none)
    (act : k.activity = .awaitingAck ∨ k.activity = .sendingSequence) : (site.setLink 0 k).LinksOk := by
  have runs : ∀ l, (site.setLink 0 k).runs l = false := fun _ => rfl
  refine ⟨fun l => ?_, fun l q => ?_, nofun⟩
  · by_cases hl : 0 = l
    · subst hl
      rcases act with act | act <;> simp [State.LinkOk, act, h, a, ph, runs]
    · simp [State.LinkOk, State.setLink_link, hl, site_link, Link.powerOn, runs]
  · by_cases hl : 0 = l
    · subst hl
      simp only [State.setLink_link_self, h]
      rintro ⟨⟩
      decide
    · simp [State.setLink_link, hl, site_link, Link.powerOn]

theorem witness_LinesAndSlotsStayConsistent :
    (ticking awaiting).LinksOk ∧ (ticking receiving).SlotsOk ∧ (∃ t, step (ticking awaiting) = .next t)
      ∧ (∃ t, step (ticking receiving) = .next t) ∧ (ticking replying).UpSettled ∧ ∃ t, step (ticking replying) = .next t := by
  refine ⟨linksOk_of_sequence0 rfl rfl rfl (.inl rfl), ⟨by decide +kernel, fun i => ?_⟩, step_ticking _, step_ticking _
  , fun _ h => (by cases h), step_ticking _⟩
  match i with
  | 0 => simp [ticking, receiving, State.setUp, Up.powerOn]
  | 1 => simp [ticking, receiving, State.setUp, Up.powerOn]

theorem witness_ContentsAndLanternsStayCurrent :
    recalled.tables.Ok ∧ recalled.LanternsOk ∧ recalled.ContentsFresh ∧ ∃ t, step recalled = .next t := by
  have none_of (p : PanelIx) : recalled.lantern p = none := by revert p; decide +kernel
  refine ⟨witness_GraveNoticeIsShown.1, ⟨by decide +kernel, fun p k h => ?_⟩, witness_GraveNoticeIsShown.2.1, step_ticking _⟩
  rw [none_of] at h
  cases h

theorem witness_SequencesStayWhole :
    (sending.link 0).activity = .sendingSequence ∧ (sending.link 0).sequence = some sequence0 ∧ sending.LinksOk
      ∧ (∃ t, exec .baseTick sending = .next t) ∧ ∃ t, exec (.nodeReset .all 0 []) sending = .next t := by
  exact ⟨by decide +kernel, by decide +kernel, linksOk_of_sequence0 rfl rfl rfl (.inr rfl), ⟨_, rfl⟩, _, rfl⟩

theorem witness_FaultsFollowTheThresholds :
    let s := awaiting.setHealth 0 { Health.powerOn with misses := 2 }
    (s.healthOf 0).faulted = false
      ∧ (match exec (.replyWindowEnd 0) s with | .next t => (t.healthOf 0).faulted | _ => false) = true := by decide +kernel

theorem witness_FaultsFollowTheThresholds_clear :
    let s := awaiting.setHealth 0 { Health.powerOn with faulted := true, goods := 14 }
    (s.healthOf 0).faulted = true
      ∧ (match exec (.ack 0 (ackFrame 0 7 0 0)) s with | .next t => !(t.healthOf 0).faulted | _ => false) = true := by decide +kernel

theorem witness_CountersAndFlagsOnlyGrow :
    (∀ straps, Instr.baseTick ≠ .powerOnReset straps) ∧ (∀ dest tag d, Instr.baseTick ≠ .nodeReset dest tag d)
      ∧ (∀ d, Instr.baseTick ≠ .frameComplete d) ∧ (∀ dest tag, Instr.baseTick ≠ .counterReadClear dest tag)
      ∧ (∀ dest tag d, Instr.baseTick ≠ .alertClear dest tag d) ∧ ∃ t, exec .baseTick countedOut = .next t :=
  ⟨nofun, nofun, nofun, nofun, nofun, _, rfl⟩

theorem witness_TablesStandStillInLoss :
    State.reset.loss.asserted = true ∧ (∀ straps, Instr.housekeepingTick ≠ .powerOnReset straps)
      ∧ (match exec .housekeepingTick State.reset with | .next t => t.loss.asserted | _ => false) = true :=
  ⟨rfl, nofun, by decide +kernel⟩

end Sys2Proof.Tests
end

section
/-! PROOFS. The floor decision (chapter 1, section 1.4): the search for the nearest candidate, and the stepping of a tracking
decision. Stepping up and stepping down are one argument, made for floors ordered by any injective rank and used with the rank
that counts up from the lowest floor and with the one that counts down from the highest. -/

namespace Sys2Proof.Machine

/-! ### The nearest candidate (R13, R15) -/

theorem dist_eq_apart (a b : Nat) : dist a b = apart a b := by
  unfold dist apart
  omega

/-- Floor `f` is preferred to floor `g` from position `x`: nearer, or as near and on the side the tie goes to. -/
def Preferred (level : FloorIx → Nat) (x : Nat) (tieHigh : Bool) (f g : FloorIx) : Prop :=
  apart x (level f) < apart x (level g)
    ∨ (apart x (level f) = apart x (level g) ∧ if tieHigh = true then g ≤ f else f ≤ g)

theorem Preferred.refl (level : FloorIx → Nat) (x : Nat) (tieHigh : Bool) (f : FloorIx) : Preferred level x tieHigh f f :=
  .inr ⟨rfl, by simp⟩

theorem Preferred.trans {level : FloorIx → Nat} {x : Nat} {tieHigh : Bool} {f g h : FloorIx}
    (fg : Preferred level x tieHigh f g) (gh : Preferred level x tieHigh g h) : Preferred level x tieHigh f h := by
  cases tieHigh <;> simp only [Preferred, Bool.false_eq_true, if_false, if_true, Fin.le_def] at fg gh ⊢ <;> omega

theorem Preferred.of_not {level : FloorIx → Nat} {x : Nat} {tieHigh : Bool} {f g : FloorIx}
    (h : ¬Preferred level x tieHigh f g) : Preferred level x tieHigh g f := by
  cases tieHigh <;> simp only [Preferred, Bool.false_eq_true, if_false, if_true, Fin.le_def] at h ⊢ <;> omega

/-- What a search over the floors `seen` has found: none of them is a candidate, or a candidate preferred to all of them. -/
def Found (cand : FloorIx → Bool) (level : FloorIx → Nat) (x : Nat) (tieHigh : Bool) (seen : List FloorIx) :
    Option FloorIx → Prop
  | none => ∀ g ∈ seen, cand g = false
  | some f => cand f = true ∧ f ∈ seen ∧ ∀ g ∈ seen, cand g = true → Preferred level x tieHigh f g

section
variable {cand : FloorIx → Bool} {level : FloorIx → Nat} {x : Nat} {tieHigh : Bool}

/-- A later floor `f` replaces the best so far exactly when it is preferred to it. -/
theorem nearer_some_of_lt {g f : FloorIx} (hf : cand f = true) (lt : g < f) :
    (nearer cand level x tieHigh (some g) f = some f ∧ Preferred level x tieHigh f g)
      ∨ (nearer cand level x tieHigh (some g) f = some g ∧ Preferred level x tieHigh g f) := by
  have test : (decide (dist x (level f) < dist x (level g)) || (tieHigh && dist x (level f) == dist x (level g))) = true
      ↔ Preferred level x tieHigh f g := by
    cases tieHigh with
    | false =>
      have above : ¬f ≤ g := Fin.not_le.mpr lt
      simp only [Preferred, dist_eq_apart, above, Bool.false_and, Bool.or_false, decide_eq_true_eq, Bool.false_eq_true,
        if_false, and_false, or_false]
    | true =>
      have below : g ≤ f := Fin.le_of_lt lt
      simp only [Preferred, dist_eq_apart, below, Bool.true_and, Bool.or_eq_true, decide_eq_true_eq, beq_iff_eq, if_true,
        and_true]
  by_cases pref : Preferred level x tieHigh f g
  · exact .inl ⟨by simp only [nearer, hf, if_true, test, pref], pref⟩
  · exact .inr ⟨by simp only [nearer, hf, if_true, test, pref, if_false], Preferred.of_not pref⟩

theorem nearer_extends_found {seen : List FloorIx} {best : Option FloorIx} {f : FloorIx}
    (found : Found cand level x tieHigh seen best) (later : ∀ g ∈ seen, g < f) :
    Found cand level x tieHigh (seen ++ [f]) (nearer cand level x tieHigh best f) := by
  cases hf : cand f with
  | false =>
    have skip : nearer cand level x tieHigh best f = best := by simp [nearer, hf]
    rw [skip]
    cases best with
    | none => exact List.forall_mem_append.mpr ⟨found, List.forall_mem_singleton.mpr hf⟩
    | some b =>
      obtain ⟨cb, mb, hb⟩ := found
      exact ⟨cb, List.mem_append_left _ mb, List.forall_mem_append.mpr ⟨hb, List.forall_mem_singleton.mpr (by simp [hf])⟩⟩
  | true =>
    cases best with
    | none =>
      have first : nearer cand level x tieHigh none f = some f := by simp [nearer, hf]
      have none_before : ∀ g ∈ seen, cand g = true → Preferred level x tieHigh f g :=
        fun g hg cg => absurd cg (by simp [found g hg])
      rw [first]
      exact ⟨hf, by simp, List.forall_mem_append.mpr ⟨none_before, List.forall_mem_singleton.mpr fun _ => .refl ..⟩⟩
    | some b =>
      obtain ⟨cb, mb, hb⟩ := found
      obtain ⟨takes, pref⟩ | ⟨keeps, pref⟩ := nearer_some_of_lt (level := level) (x := x) (tieHigh := tieHigh) hf (later b mb)
      · rw [takes]
        exact ⟨hf, by simp, List.forall_mem_append.mpr
          ⟨fun g hg cg => pref.trans (hb g hg cg), List.forall_mem_singleton.mpr fun _ => .refl ..⟩⟩
      · rw [keeps]
        exact ⟨cb, List.mem_append_left _ mb,
          List.forall_mem_append.mpr ⟨hb, List.forall_mem_singleton.mpr fun _ => pref⟩⟩

theorem found_foldl_nearer {seen rest : List FloorIx} {best : Option FloorIx} (found : Found cand level x tieHigh seen best)
    (sorted : (seen ++ rest).Pairwise (· < ·)) :
    Found cand level x tieHigh (seen ++ rest) (rest.foldl (nearer cand level x tieHigh) best) := by
  induction rest generalizing seen best with
  | nil => rwa [List.append_nil]
  | cons f rest ih =>
    obtain ⟨-, -, later⟩ := List.pairwise_append.mp sorted
    have extended := nearer_extends_found found fun g hg => later g hg f List.mem_cons_self
    rw [List.append_cons] at sorted ⊢
    exact ih extended sorted

theorem mem_allFloors (f : FloorIx) : f ∈ allFloors := List.mem_finRange f

theorem allFloors_sorted : allFloors.Pairwise (· < ·) := List.pairwise_lt_finRange 160

theorem found_nearest : Found cand level x tieHigh allFloors (nearest cand level x tieHigh) :=
  found_foldl_nearer (seen := []) (fun _ hg => absurd hg List.not_mem_nil) allFloors_sorted

theorem nearest_eq_none (h : ∀ f, cand f = false) : nearest cand level x tieHigh = none := by
  have found := found_nearest (cand := cand) (level := level) (x := x) (tieHigh := tieHigh)
  cases hn : nearest cand level x tieHigh with
  | none => rfl
  | some f =>
    rw [hn] at found
    exact absurd found.1 (by simp [h])

theorem nearest_spec {f : FloorIx} (h : nearest cand level x tieHigh = some f) :
    cand f = true ∧ ∀ g, cand g = true → Preferred level x tieHigh f g := by
  have found := found_nearest (cand := cand) (level := level) (x := x) (tieHigh := tieHigh)
  rw [h] at found
  obtain ⟨cf, -, pref⟩ := found
  exact ⟨cf, fun g => pref g (mem_allFloors g)⟩

theorem exists_nearest (h : ∃ f, cand f = true) : ∃ f, nearest cand level x tieHigh = some f := by
  obtain ⟨g, cg⟩ := h
  have found := found_nearest (cand := cand) (level := level) (x := x) (tieHigh := tieHigh)
  cases hn : nearest cand level x tieHigh with
  | none =>
    rw [hn] at found
    exact absurd cg (by simp [found g (mem_allFloors g)])
  | some f => exact ⟨f, rfl⟩

end

/-! ### The decisions, case by case -/

theorem State.withinWindow_eq (s : State) (c : CarIx) (pd : Nat) (f : FloorIx) :
    s.withinWindow c pd f = decide (apart pd (s.level f) ≤ s.effWindow c) := by
  rw [State.withinWindow, dist_eq_apart]

theorem State.snap_of_nearest_none {s : State} {c : CarIx} {k : Deck}
    (h : nearest (s.candidate c) s.level (s.deckPosition c k) false = none) : s.snap c k = (none, false) := by
  simp [State.snap, h]

theorem State.snap_of_nearest_some {s : State} {c : CarIx} {k : Deck} {f : FloorIx}
    (h : nearest (s.candidate c) s.level (s.deckPosition c k) false = some f) :
    s.snap c k = (some f, decide (apart (s.deckPosition c k) (s.level f) ≤ s.effWindow c)) := by
  simp [State.snap, h, State.withinWindow_eq]

theorem State.track_of_nearest_none {s : State} {c : CarIx} {k : Deck} {d : FloorIx}
    (h : nearest (s.candidate c) s.level (s.expected c k) (decide (0 < (s.car c).velocity)) = none) :
    s.track c k d = (none, false) := by
  simp [State.track, h]

/-- R16: the goal lies against the direction of travel of a moving car. -/
abbrev State.against (s : State) (c : CarIx) (goal d : FloorIx) : Prop :=
  (goal < d ∧ 0 < (s.car c).velocity) ∨ (d < goal ∧ (s.car c).velocity < 0)

section
variable {s : State} {c : CarIx} {k : Deck} {d goal : FloorIx}
  (h : nearest (s.candidate c) s.level (s.expected c k) (decide (0 < (s.car c).velocity)) = some goal)
include h

theorem State.track_of_against (mv : s.moving c = true) (ag : s.against c goal d) : s.track c k d = (some d, false) := by
  have test : (s.moving c && ((decide (goal < d) && decide (0 < (s.car c).velocity))
      || (decide (d < goal) && decide ((s.car c).velocity < 0)))) = true := by simpa [mv] using ag
  simp only [State.track, h, test, if_true]

theorem State.track_of_not_against (hn : ¬(s.moving c = true ∧ s.against c goal d)) :
    let d' := stepToward (s.candidate c) s.level (s.expected c k) (s.effHysteresis c) goal 160 d
    s.track c k d =
      (some d', decide (s.moving c = false ∧ apart (s.deckPosition c k) (s.level d') ≤ s.effWindow c)) := by
  have test : ¬(s.moving c && ((decide (goal < d) && decide (0 < (s.car c).velocity))
      || (decide (d < goal) && decide ((s.car c).velocity < 0)))) = true := by simpa using hn
  simp only [State.track, h, test, Bool.false_eq_true, if_false, State.withinWindow_eq, Bool.decide_and,
    Bool.decide_eq_false]

end

/-- R14 with the moving test and the clamp written out. -/
theorem State.expected_eq (s : State) (c : CarIx) (k : Deck) :
    s.expected c k =
      if (s.car c).velocity.natAbs < s.profile.vmin ∨ (s.car c).velocity = 0 then s.deckPosition c k
      else if 0 < (s.car c).velocity then
        min (s.deckPosition c k + min ((s.car c).velocity.natAbs * s.effLead c / 1000) (s.effCap c)) 1048575
      else s.deckPosition c k - min ((s.car c).velocity.natAbs * s.effLead c / 1000) (s.effCap c) := by
  by_cases stopped : (s.car c).velocity.natAbs < s.profile.vmin ∨ (s.car c).velocity = 0
  · have mv : s.moving c = false := by
      simp only [State.moving, movingAt, Bool.and_eq_false_iff, bne_eq_false_iff_eq, decide_eq_false_iff_not]
      omega
    simp [State.expected, mv, stopped]
  · have mv : s.moving c = true := by
      simp only [State.moving, movingAt, Bool.and_eq_true, bne_iff_ne, decide_eq_true_eq]
      omega
    simp [State.expected, State.lead, mv, stopped, Config.maxPosition]

/-! ### Stepping along a rank of the floors (R17) -/

section
variable {rank : FloorIx → Nat} {cand : FloorIx → Bool} {passes : FloorIx → FloorIx → Prop} {goal d d' e : FloorIx}

/-- `e` is the candidate that follows `d` in the order of the rank. -/
def IsNext (rank : FloorIx → Nat) (cand : FloorIx → Bool) (d e : FloorIx) : Prop :=
  rank d < rank e ∧ cand e = true ∧ ∀ f, rank d < rank f → cand f = true → rank e ≤ rank f

/-- R17 in the direction of the rank: every step from `d` to `d'` passed its test, and the next would not. -/
def Stepped (rank : FloorIx → Nat) (cand : FloorIx → Bool) (passes : FloorIx → FloorIx → Prop) (goal d d' : FloorIx) : Prop :=
  rank d ≤ rank d' ∧ rank d' ≤ rank goal ∧ (d' = d ∨ cand d' = true)
    ∧ (∀ a b, rank d ≤ rank a → rank b ≤ rank d' → (a = d ∨ cand a = true) → IsNext rank cand a b → passes a b)
    ∧ (d' ≠ goal → ∀ b, IsNext rank cand d' b → ¬passes d' b)

theorem IsNext.of_none_between (lt : rank d < rank e) (ce : cand e = true)
    (skip : ∀ f, rank d < rank f → rank f < rank e → cand f = false) : IsNext rank cand d e := by
  refine ⟨lt, ce, fun f df cf => Nat.le_of_not_lt fun fe => ?_⟩
  rw [skip f df fe] at cf
  cases cf

theorem IsNext.unique (inj : Function.Injective rank) (he : IsNext rank cand d e) (hd' : IsNext rank cand d d') : e = d' := by
  obtain ⟨de, ce, least⟩ := he
  obtain ⟨dd', cd', least'⟩ := hd'
  exact inj (Nat.le_antisymm (least d' dd' cd') (least' e de ce))

theorem Stepped.stay (le : rank d ≤ rank goal) (stop : d ≠ goal → ∀ b, IsNext rank cand d b → ¬passes d b) :
    Stepped rank cand passes goal d d := by
  refine ⟨Nat.le_refl _, le, .inl rfl, fun a b da bd _ next => ?_, stop⟩
  have ab := next.1
  omega

theorem Stepped.cons (inj : Function.Injective rank) (next : IsNext rank cand d e) (pass : passes d e)
    (rest : Stepped rank cand passes goal e d') : Stepped rank cand passes goal d d' := by
  obtain ⟨ed, dg, cd, passed, stop⟩ := rest
  obtain ⟨de, ce, least⟩ := id next
  refine ⟨by omega, dg, .inr ?_, fun a b da bd ca nab => ?_, stop⟩
  · rcases cd with rfl | cd
    · exact ce
    · exact cd
  · rcases ca with rfl | ca
    · obtain rfl := nab.unique inj next
      exact pass
    · rcases Nat.eq_or_lt_of_le da with same | da
      · obtain rfl := inj same
        obtain rfl := nab.unique inj next
        exact pass
      · exact passed a b (least a da ca) bd (.inr ca) nab

/-- A function of fuel and place that stays at the goal, and anywhere before it steps to the next candidate exactly when the
test passes, has stepped, as long as the fuel lasts. -/
theorem stepped_of_iterate (inj : Function.Injective rank) (walk : Nat → FloorIx → FloorIx) (cg : cand goal = true)
    (atGoal : ∀ n, walk n goal = goal)
    (step : ∀ n d, rank d < rank goal → ∃ e, IsNext rank cand d e
      ∧ ((passes d e ∧ walk (n + 1) d = walk n e) ∨ (¬passes d e ∧ walk (n + 1) d = d)))
    (n : Nat) (d : FloorIx) (le : rank d ≤ rank goal) (fuel : rank goal ≤ rank d + n) :
    Stepped rank cand passes goal d (walk n d) := by
  induction n generalizing d with
  | zero =>
    obtain rfl := inj (Nat.le_antisymm le fuel)
    rw [atGoal]
    exact .stay le (absurd rfl)
  | succ n ih =>
    rcases Nat.eq_or_lt_of_le le with same | lt
    · obtain rfl := inj same
      rw [atGoal]
      exact .stay le (absurd rfl)
    · obtain ⟨e, next, ⟨pass, moves⟩ | ⟨fail, stays⟩⟩ := step n d lt
      · obtain ⟨de, -, least⟩ := id next
        rw [moves]
        exact .cons inj next pass (ih e (least goal lt cg) (by omega))
      · rw [stays]
        refine .stay le fun _ b nb => ?_
        rwa [nb.unique inj next]

/-- The first hit of a search through a list sorted by rank is the hit of the least rank. -/
theorem exists_find?_least {l : List FloorIx} (sorted : l.Pairwise fun a b => rank a < rank b) {p : FloorIx → Bool}
    (mem : goal ∈ l) (pg : p goal = true) :
    ∃ e, l.find? p = some e ∧ p e = true ∧ ∀ f ∈ l, p f = true → rank e ≤ rank f := by
  induction sorted with
  | nil => exact absurd mem List.not_mem_nil
  | @cons a l lt _ ih =>
    cases pa : p a with
    | true =>
      refine ⟨a, List.find?_cons_of_pos pa, pa, List.forall_mem_cons.mpr ⟨fun _ => Nat.le_refl _, fun f hf _ => ?_⟩⟩
      exact Nat.le_of_lt (lt f hf)
    | false =>
      have miss : ¬p a = true := Bool.not_eq_true _ ▸ pa
      rcases List.mem_cons.mp mem with rfl | mem
      · exact absurd pg miss
      · obtain ⟨e, found, pe, least⟩ := ih mem
        exact ⟨e, (List.find?_cons_of_neg miss).trans found, pe,
          List.forall_mem_cons.mpr ⟨fun pa => absurd pa miss, least⟩⟩

end

/-! ### Stepping over the floors (R17) -/

/-- The rank of the floors for stepping up, and for stepping down. -/
def fromLowest (f : FloorIx) : Nat := f.val
def fromHighest (f : FloorIx) : Nat := 159 - f.val

theorem fromLowest_le {a b : FloorIx} : fromLowest a ≤ fromLowest b ↔ a ≤ b := Iff.rfl

theorem fromLowest_lt {a b : FloorIx} : fromLowest a < fromLowest b ↔ a < b := Iff.rfl

theorem fromHighest_le {a b : FloorIx} : fromHighest a ≤ fromHighest b ↔ b ≤ a := by
  rw [Fin.le_def]
  unfold fromHighest
  omega

theorem fromHighest_lt {a b : FloorIx} : fromHighest a < fromHighest b ↔ b < a := by
  rw [Fin.lt_def]
  unfold fromHighest
  omega

theorem fromLowest_injective : Function.Injective fromLowest := fun _ _ => Fin.ext

theorem fromHighest_injective : Function.Injective fromHighest := by
  intro a b same
  unfold fromHighest at same
  exact Fin.ext (by omega)

section
variable {cand : FloorIx → Bool} {level : FloorIx → Nat} {pe hyst : Nat} {goal d d' e : FloorIx}

/-- R17's tests: the expected position is past the midpoint by the hysteresis, above it or below it. -/
def passesUp (level : FloorIx → Nat) (pe hyst : Nat) (a b : FloorIx) : Prop := (level a + level b) / 2 + hyst ≤ pe
def passesDown (level : FloorIx → Nat) (pe hyst : Nat) (a b : FloorIx) : Prop := pe + hyst ≤ (level a + level b) / 2

theorem exists_nextCandidate_up (lt : d < goal) (cg : cand goal = true) :
    ∃ e, nextCandidate cand d true = some e ∧ IsNext fromLowest cand d e := by
  obtain ⟨e, found, hit, least⟩ := exists_find?_least (rank := fromLowest) (p := fun f => decide (d < f) && cand f)
    allFloors_sorted (mem_allFloors goal) (Bool.and_eq_true_iff.mpr ⟨decide_eq_true lt, cg⟩)
  obtain ⟨above, ce⟩ := Bool.and_eq_true_iff.mp hit
  refine ⟨e, found, fromLowest_lt.mpr (of_decide_eq_true above), ce, fun f df cf => ?_⟩
  exact least f (mem_allFloors f) (Bool.and_eq_true_iff.mpr ⟨decide_eq_true (fromLowest_lt.mp df), cf⟩)

theorem exists_nextCandidate_down (lt : goal < d) (cg : cand goal = true) :
    ∃ e, nextCandidate cand d false = some e ∧ IsNext fromHighest cand d e := by
  have sorted : allFloors.reverse.Pairwise fun a b => fromHighest a < fromHighest b :=
    List.pairwise_reverse.mpr (allFloors_sorted.imp fromHighest_lt.mpr)
  obtain ⟨e, found, hit, least⟩ := exists_find?_least (p := fun f => decide (f < d) && cand f) sorted
    (List.mem_reverse.mpr (mem_allFloors goal)) (Bool.and_eq_true_iff.mpr ⟨decide_eq_true lt, cg⟩)
  obtain ⟨below, ce⟩ := Bool.and_eq_true_iff.mp hit
  refine ⟨e, found, fromHighest_lt.mpr (of_decide_eq_true below), ce, fun f df cf => ?_⟩
  exact least f (List.mem_reverse.mpr (mem_allFloors f))
    (Bool.and_eq_true_iff.mpr ⟨decide_eq_true (fromHighest_lt.mp df), cf⟩)

theorem stepToward_goal (n : Nat) : stepToward cand level pe hyst goal n goal = goal := by
  cases n with
  | zero => rfl
  | succ n => simp only [stepToward, if_true]

theorem stepToward_up (lt : d < goal) (next : nextCandidate cand d true = some e) (n : Nat) :
    (passesUp level pe hyst d e ∧ stepToward cand level pe hyst goal (n + 1) d = stepToward cand level pe hyst goal n e)
      ∨ (¬passesUp level pe hyst d e ∧ stepToward cand level pe hyst goal (n + 1) d = d) := by
  have test : (((level d + level e) / 2 : Nat) : Int) + hyst ≤ pe ↔ passesUp level pe hyst d e := by
    unfold passesUp
    omega
  have ne : d ≠ goal := Fin.ne_of_lt lt
  by_cases pass : passesUp level pe hyst d e
  · exact .inl ⟨pass, by simp only [stepToward, ne, if_false, decide_eq_true lt, next, if_true, test, pass]⟩
  · exact .inr ⟨pass, by simp only [stepToward, ne, if_false, decide_eq_true lt, next, if_true, test, pass]⟩

theorem stepToward_down (lt : goal < d) (next : nextCandidate cand d false = some e) (n : Nat) :
    (passesDown level pe hyst d e ∧ stepToward cand level pe hyst goal (n + 1) d = stepToward cand level pe hyst goal n e)
      ∨ (¬passesDown level pe hyst d e ∧ stepToward cand level pe hyst goal (n + 1) d = d) := by
  have test : (pe : Int) ≤ (((level d + level e) / 2 : Nat) : Int) - hyst ↔ passesDown level pe hyst d e := by
    unfold passesDown
    omega
  have ne : d ≠ goal := (Fin.ne_of_lt lt).symm
  have notUp : decide (d < goal) = false := decide_eq_false (Fin.not_lt.mpr (Fin.le_of_lt lt))
  by_cases pass : passesDown level pe hyst d e
  · exact .inl ⟨pass, by
      simp only [stepToward, ne, notUp, next, Bool.false_eq_true, if_false, test, pass, if_true]⟩
  · exact .inr ⟨pass, by
      simp only [stepToward, ne, notUp, next, Bool.false_eq_true, if_false, test, pass]⟩

theorem stepped_up_stepToward (cg : cand goal = true) (le : d ≤ goal) :
    Stepped fromLowest cand (passesUp level pe hyst) goal d (stepToward cand level pe hyst goal 160 d) := by
  refine stepped_of_iterate fromLowest_injective _ cg stepToward_goal (fun n d lt => ?_) 160 d (fromLowest_le.mpr le) ?_
  · have lt := fromLowest_lt.mp lt
    obtain ⟨e, found, next⟩ := exists_nextCandidate_up lt cg
    exact ⟨e, next, stepToward_up lt found n⟩
  · unfold fromLowest
    omega

theorem stepped_down_stepToward (cg : cand goal = true) (le : goal ≤ d) :
    Stepped fromHighest cand (passesDown level pe hyst) goal d (stepToward cand level pe hyst goal 160 d) := by
  refine stepped_of_iterate fromHighest_injective _ cg stepToward_goal (fun n d lt => ?_) 160 d (fromHighest_le.mpr le) ?_
  · have lt := fromHighest_lt.mp lt
    obtain ⟨e, found, next⟩ := exists_nextCandidate_down lt cg
    exact ⟨e, next, stepToward_down lt found n⟩
  · unfold fromHighest
    omega

theorem Stepped.steppedUp (h : Stepped fromLowest cand (passesUp level pe hyst) goal d d') :
    SteppedUp cand level pe hyst goal d d' := by
  obtain ⟨dd', dg, cd, passed, stop⟩ := h
  refine ⟨fromLowest_le.mp dd', fromLowest_le.mp dg, cd, fun a b da ab bd ca cb skip => ?_, fun ne b db cb skip => ?_⟩
  · exact passed a b da bd ca (.of_none_between ab cb skip)
  · exact Nat.lt_of_not_le (stop ne b (.of_none_between db cb skip))

theorem Stepped.steppedDown (h : Stepped fromHighest cand (passesDown level pe hyst) goal d d') :
    SteppedDown cand level pe hyst goal d d' := by
  have next {a b : FloorIx} (ba : b < a) (cb : cand b = true) (skip : nextTo cand b a) : IsNext fromHighest cand a b :=
    .of_none_between (fromHighest_lt.mpr ba) cb fun f af fb => skip f (fromHighest_lt.mp fb) (fromHighest_lt.mp af)
  obtain ⟨dd', dg, cd, passed, stop⟩ := h
  refine ⟨fromHighest_le.mp dd', fromHighest_le.mp dg, cd, fun a b db ba ad ca cb skip => ?_, fun ne b bd cb skip => ?_⟩
  · exact passed a b (fromHighest_le.mpr ad) (fromHighest_le.mpr db) ca (next ba cb skip)
  · exact Nat.lt_of_not_le (stop ne b (next bd cb skip))

end

/-! ### The statements -/

/-- Settles O12, by `nearest_spec`: the search keeps the preferred candidate of the floors it has seen. -/
theorem snapTakesTheNearestCandidate : Obligations.SnapTakesTheNearestCandidate := by
  intro s c k
  refine ⟨fun empty => State.snap_of_nearest_none (nearest_eq_none empty), fun nonempty => ?_⟩
  obtain ⟨f, hf⟩ := exists_nearest (level := s.level) (x := s.deckPosition c k) (tieHigh := false) nonempty
  obtain ⟨cf, pref⟩ := nearest_spec hf
  exact ⟨f, cf, State.snap_of_nearest_some hf, pref⟩

/-- Settles O13, by `nearest_spec` at the expected position, which `State.expected_eq` writes out. -/
theorem trackingHeadsForTheNearest : Obligations.TrackingHeadsForTheNearest := by
  intro s c k d V Pd lead Pe
  have expected : s.expected c k = Pe := s.expected_eq c k
  refine ⟨fun empty => State.track_of_nearest_none (nearest_eq_none empty), fun nonempty => ?_⟩
  obtain ⟨C, hC⟩ := exists_nearest (level := s.level) (x := s.expected c k) (tieHigh := decide (0 < V)) nonempty
  obtain ⟨cC, pref⟩ := nearest_spec hC
  refine ⟨C, hC, expected, cC, fun g cg => ?_⟩
  have prefCg := pref g cg
  simpa only [Preferred, expected, decide_eq_true_eq] using prefCg

/-- Settles O14: the stepping is `stepped_of_iterate`, with the floors ranked upward and downward. -/
theorem trackingStepsByHysteresis : Obligations.TrackingStepsByHysteresis := by
  intro s c k d C V hC
  obtain ⟨cC, -⟩ := nearest_spec hC
  refine ⟨fun mv ag => State.track_of_against hC mv ag, fun hn => ⟨_, State.track_of_not_against hC hn, ?_, ?_⟩⟩
  · exact fun le => (stepped_up_stepToward cC le).steppedUp
  · exact fun le => (stepped_down_stepToward cC le).steppedDown

end Sys2Proof.Machine
end

section
/-! PROOFS. Counters and queues (rules R180 and R47): what increments add to the counters one after another, and what a loop over
the kiosks, each of whose turns acts on the queue of its own kiosk, does to all queues and to one counter. -/

namespace Sys2Proof.Machine

/-! ### What a change leaves as it was -/

section
variable {ps : List Part} {s t : State}

theorem OnlyIn.queue_eq (h : OnlyIn ps s t) (hq : .queues ∉ ps := by decide) (k : KioskIx) : t.queue k = s.queue k := by
  have same : t.queues = s.queues := h .queues hq
  rw [State.queue, State.queue, same]

theorem OnlyIn.kioskEntry_eq (h : OnlyIn ps s t) (ht : .tables ∉ ps := by decide) (k : KioskIx) :
    t.kioskEntry k = s.kioskEntry k := by
  have same : t.tables = s.tables := h .tables ht
  rw [State.kioskEntry, State.kioskEntry, same]

theorem OnlyIn.counter_eq (h : OnlyIn ps s t) (hc : .counters ∉ ps := by decide) (c : CounterId) :
    t.mgmt.counter c = s.mgmt.counter c := by
  have same : t.mgmt.counters = s.mgmt.counters := h .counters hc
  rw [Mgmt.counter, Mgmt.counter, same]

end

/-! ### Counting (R180) -/

theorem CounterId.index_injective : Function.Injective CounterId.index :=
  Function.LeftInverse.injective (g := fun i => CounterId.ofNat i.val) fun c => by cases c <;> rfl

theorem saturated_zero (v : Nat) : saturated v 0 = v := by
  unfold saturated
  omega

theorem saturated_saturated (v m n : Nat) : saturated (saturated v m) n = saturated v (m + n) := by
  unfold saturated
  omega

theorem times_zero (c : CounterId) : times c 0 = fun _ => 0 := by
  funext k
  exact ite_self 0

theorem times_add (c : CounterId) (m n : Nat) : times c (m + n) = fun k => times c m k + times c n k := by
  funext k
  by_cases h : k = c <;> simp [times, h]

theorem Mgmt.counter_raise (a : AlertId) (m : Mgmt) (k : CounterId) : (m.raise a).counter k = m.counter k := by
  obtain ⟨-, -, -, -, counters, -⟩ := Mgmt.raise_keeps a m
  rw [Mgmt.counter, Mgmt.counter, counters]

theorem Mgmt.counter_setCounter (m : Mgmt) (c k : CounterId) (v : Nat) :
    ({ m with counters := m.counters.set c.index v } : Mgmt).counter k = if k = c then v else m.counter k := by
  by_cases h : k = c
  · simp [Mgmt.counter, h]
  · have apart : c.index.val ≠ k.index.val := fun e => h (CounterId.index_injective (Fin.ext e)).symm
    simp [Mgmt.counter, h, apart]

theorem Mgmt.counter_bump (c : CounterId) (m : Mgmt) (k : CounterId) :
    (m.bump c).counter k = saturated (m.counter k) (times c 1 k) := by
  have counted : (m.bump c).counter k
      = if m.counter c < Config.counterMax ∧ k = c then m.counter c + 1 else m.counter k := by
    dsimp only [Mgmt.bump]
    by_cases room : m.counter c < Config.counterMax
    · by_cases full : m.counter c + 1 = Config.counterMax
      · simp only [room, full, if_true, true_and, Mgmt.counter_raise, Mgmt.counter_setCounter]
      · simp only [room, full, if_true, if_false, true_and, Mgmt.counter_setCounter]
    · simp only [room, if_false, false_and]
  rw [counted]
  by_cases h : k = c
  · subst h
    simp only [and_true, times, saturated, if_true]
    split <;> omega
  · simp only [h, and_false, if_false, times, saturated_zero]

section
variable {s t u : State}

theorem Counted.of_counter_eq (h : ∀ k, t.mgmt.counter k = s.mgmt.counter k) : Counted s t fun _ => 0 :=
  fun k => (h k).trans (saturated_zero _).symm

theorem Counted.trans {m n : CounterId → Nat} (h : Counted s t m) (h' : Counted t u n) :
    Counted s u fun k => m k + n k :=
  fun k => by rw [h' k, h k, saturated_saturated]

theorem Counted.times_add {c : CounterId} {m n : Nat} (h : Counted s t (times c m)) (h' : Counted t u (times c n)) :
    Counted s u (times c (m + n)) :=
  Machine.times_add c m n ▸ h.trans h'

theorem Counted.of_onlyIn {ps : List Part} (h : OnlyIn ps s t) (hc : .counters ∉ ps := by decide) : Counted s t fun _ => 0 :=
  .of_counter_eq (h.counter_eq hc)

end

theorem counted_bump (c : CounterId) (s : State) : Counted s (bump c s) (times c 1) := Mgmt.counter_bump c s.mgmt

theorem counted_bumpN (c : CounterId) (n : Nat) (s : State) : Counted s (bumpN c n s) (times c n) := by
  induction n with
  | zero => exact times_zero c ▸ Counted.of_counter_eq fun _ => rfl
  | succ n ih =>
    have last : bumpN c (n + 1) s = bump c (bumpN c n s) := by simp [bumpN, List.range_succ]
    exact last ▸ ih.times_add (counted_bump c _)

/-! ### One queue, and all queues (R47) -/

theorem State.queue_setQueue (s : State) (k j : KioskIx) (q : List Prompt) :
    (s.setQueue k q).queue j = if j = k then q else s.queue j := by
  by_cases h : j = k
  · simp [State.queue, State.setQueue, h]
  · have apart : k.val ≠ j.val := fun e => h (Fin.ext e).symm
    simp [State.queue, State.setQueue, h, apart]

theorem queue_putQueue (k j : KioskIx) (q : List Prompt) (s : State) :
    (putQueue k q s).queue j = if j = k then q else s.queue j := by
  rw [putQueue, (recomposeKiosk_only _ k).queue_eq, State.queue_setQueue]

/-- From `s` to `t` every kiosk of `ks` has its queue changed by `g`, every other queue stays as it is, and counter `c` counts
`n` of the queues that `ks` had. -/
structure EachQueue (g : KioskIx → List Prompt → List Prompt) (c : CounterId) (n : KioskIx → List Prompt → Nat)
    (ks : List KioskIx) (s t : State) : Prop where
  queues : ∀ j, t.queue j = if j ∈ ks then g j (s.queue j) else s.queue j
  counts : Counted s t (times c (ks.map fun k => n k (s.queue k)).sum)

section
variable {g : KioskIx → List Prompt → List Prompt} {c : CounterId} {n : KioskIx → List Prompt → Nat}

theorem EachQueue.nil (s : State) : EachQueue g c n [] s s :=
  ⟨fun j => by simp, times_zero c ▸ Counted.of_counter_eq fun _ => rfl⟩

/-- A turn that changes nothing, at a queue from which nothing goes. -/
theorem EachQueue.unchanged {k : KioskIx} {s : State} (stays : g k (s.queue k) = s.queue k)
    (empty : n k (s.queue k) = 0) : EachQueue g c n [k] s s := by
  refine ⟨fun j => ?_, ?_⟩
  · by_cases h : j = k <;> simp [h, stays]
  · rw [List.map_singleton, List.sum_singleton, empty, times_zero]
    exact .of_counter_eq fun _ => rfl

/-- A turn that counts what goes and replaces the queue. -/
theorem EachQueue.counted_putQueue (k : KioskIx) (s : State) :
    EachQueue g c n [k] s (putQueue k (g k (s.queue k)) (bumpN c (n k (s.queue k)) s)) := by
  refine ⟨fun j => ?_, ?_⟩
  · rw [queue_putQueue, (bumpN_only s _ _).queue_eq]
    by_cases h : j = k <;> simp [h]
  · rw [List.map_singleton, List.sum_singleton]
    exact (counted_bumpN c _ s).trans (.of_onlyIn (putQueue_only _ _ _))

theorem EachQueue.cons {k : KioskIx} {ks : List KioskIx} {s t u : State} (fresh : k ∉ ks)
    (first : EachQueue g c n [k] s t) (rest : EachQueue g c n ks t u) : EachQueue g c n (k :: ks) s u := by
  have kept : ∀ j, j ≠ k → t.queue j = s.queue j := fun j ne => by simp [first.queues j, ne]
  refine ⟨fun j => ?_, ?_⟩
  · by_cases h : j = k
    · subst h
      simp [rest.queues, fresh, first.queues]
    · simp [rest.queues, h, kept j h]
  · have same : (ks.map fun k => n k (t.queue k)) = ks.map fun k => n k (s.queue k) :=
      List.map_congr_left fun j hj => by rw [kept j (ne_of_mem_of_not_mem hj fresh)]
    have counts := first.counts.times_add rest.counts
    rwa [same, List.map_singleton, List.sum_singleton] at counts

/-- A loop over distinct kiosks, each of whose turns acts on its own queue where `P` holds, and keeps `P`. -/
theorem eachQueue_forEach {P : State → Prop} {f : KioskIx → State → State} {ks : List KioskIx} {s : State}
    (distinct : ks.Nodup) (hs : P s) (keeps : ∀ k t, P t → P (f k t))
    (turn : ∀ k t, P t → EachQueue g c n [k] t (f k t)) : EachQueue g c n ks s (forEach ks f s) := by
  induction ks generalizing s with
  | nil => exact .nil s
  | cons k ks ih =>
    obtain ⟨fresh, distinct⟩ := List.nodup_cons.mp distinct
    exact (turn k s hs).cons fresh (ih distinct (keeps k s hs))

end

theorem mem_allKiosks (k : KioskIx) : k ∈ allKiosks := List.mem_finRange k

theorem allKiosks_nodup : allKiosks.Nodup := List.nodup_finRange 32

end Sys2Proof.Machine
end

section
/-! PROOFS. Boarding (chapter 3, R57 and R58): what an entrance-closed event does at one kiosk, and at all of them. -/

namespace Sys2Proof.Machine

/-- Whether an entrance-closed event concerns a kiosk: it is enabled, and on the event's floor (R57). -/
def ClosedEvent.concerns (e : ClosedEvent) (x : KioskEntry) : Bool := x.enabled && decide (x.floor = e.floor)

/-- The queue that an entrance-closed event leaves at a kiosk, and how many records it boards there. -/
def ClosedEvent.leaves (e : ClosedEvent) (x : KioskEntry) (q : List Prompt) : List Prompt :=
  if e.concerns x then q.filter fun r => !e.boards r else q
def ClosedEvent.boardCount (e : ClosedEvent) (x : KioskEntry) (q : List Prompt) : Nat :=
  if e.concerns x then q.countP e.boards else 0

theorem boardAt_eq_of_boards {e : ClosedEvent} {k : KioskIx} {s : State} (here : e.concerns (s.kioskEntry k) = true)
    (goes : (s.queue k).any e.boards = true) :
    boardAt e k s = putQueue k ((s.queue k).filter fun r => !e.boards r)
      (bumpN .promptsBoarded ((s.queue k).countP e.boards) s) :=
  if_pos (Bool.and_eq_true_iff.mpr ⟨here, goes⟩)

theorem boardAt_eq_self {e : ClosedEvent} {k : KioskIx} {s : State}
    (h : e.concerns (s.kioskEntry k) = false ∨ (s.queue k).any e.boards = false) : boardAt e k s = s :=
  if_neg fun both => by
    obtain ⟨here, goes⟩ := Bool.and_eq_true_iff.mp both
    exact h.elim (fun h => Bool.noConfusion (h.symm.trans here)) fun h => Bool.noConfusion (h.symm.trans goes)

theorem boardAt_only (e : ClosedEvent) (k : KioskIx) (s : State) :
    OnlyIn (.queues :: .counters :: composeParts) s (boardAt e k s) :=
  OnlyIn.ite (fun _ => (bumpN_only s _ _).comp (putQueue_only _ _ _)) fun _ => OnlyIn.refl _ s

theorem eachQueue_boardAt (e : ClosedEvent) (k : KioskIx) (s : State) :
    EachQueue (fun j => e.leaves (s.kioskEntry j)) .promptsBoarded (fun j => e.boardCount (s.kioskEntry j)) [k] s
      (boardAt e k s) := by
  cases here : e.concerns (s.kioskEntry k) with
  | false =>
    rw [boardAt_eq_self (.inl here)]
    exact .unchanged (by simp [ClosedEvent.leaves, here]) (by simp [ClosedEvent.boardCount, here])
  | true =>
    cases goes : (s.queue k).any e.boards with
    | false =>
      have stay : ∀ r ∈ s.queue k, ¬e.boards r = true := by simpa using goes
      rw [boardAt_eq_self (.inr goes)]
      refine .unchanged ?_ ?_
      · simpa [ClosedEvent.leaves, here, List.filter_eq_self] using stay
      · simpa [ClosedEvent.boardCount, here, List.countP_eq_zero] using stay
    | true =>
      have left : e.leaves (s.kioskEntry k) (s.queue k) = (s.queue k).filter fun r => !e.boards r := if_pos here
      have count : e.boardCount (s.kioskEntry k) (s.queue k) = (s.queue k).countP e.boards := if_pos here
      rw [boardAt_eq_of_boards here goes, ← left, ← count]
      exact .counted_putQueue k s

theorem eachQueue_boarding (e : ClosedEvent) (s : State) :
    EachQueue (fun k => e.leaves (s.kioskEntry k)) .promptsBoarded (fun k => e.boardCount (s.kioskEntry k)) allKiosks s
      (boarding e s) := by
  refine eachQueue_forEach (P := fun t => t.kioskEntry = s.kioskEntry) allKiosks_nodup rfl (fun k t same => ?_)
    fun k t same => same ▸ eachQueue_boardAt e k t
  exact (funext ((boardAt_only e k t).kioskEntry_eq (by decide))).trans same

theorem sum_boardCount_of_kiosks (e : ClosedEvent) (s : State) (ks : List KioskIx) :
    (ks.map fun k => e.boardCount (s.kioskEntry k) (s.queue k)).sum
      = ((ks.filter fun k => e.concerns (s.kioskEntry k)).map fun k => (s.queue k).countP e.boards).sum := by
  induction ks with
  | nil => rfl
  | cons k ks ih =>
    cases here : e.concerns (s.kioskEntry k) with
    | false =>
      have count : e.boardCount (s.kioskEntry k) (s.queue k) = 0 := by
        simp only [ClosedEvent.boardCount, here, Bool.false_eq_true, if_false]
      simp only [List.map_cons, List.sum_cons, List.filter_cons, here, Bool.false_eq_true, if_false, count, Nat.zero_add, ih]
    | true =>
      have count : e.boardCount (s.kioskEntry k) (s.queue k) = (s.queue k).countP e.boards := if_pos here
      simp only [List.map_cons, List.sum_cons, List.filter_cons, here, if_true, count, ih]

/-- Settles O15: `boarding` is one `boardAt` for each kiosk, and a turn touches the queue of its own kiosk only. -/
theorem entranceClosedBoardsPrompts : Obligations.EntranceClosedBoardsPrompts := by
  intro e s deckOk wayOk boards here
  have sameBoards : boards = e.boards := by
    funext r
    have deck : deckOk r = deckMatches e.deck r.deck := by
      simp only [deckOk]
      cases e.deck <;> cases r.deck <;> rfl
    have car : decide (r.car = e.car) = (r.car == e.car) := rfl
    have way : wayOk r = directionTakes e.dir r.destination e.floor := rfl
    simp only [boards, car, deck, way, ClosedEvent.boards]
  have board := eachQueue_boarding e s
  rw [sameBoards]
  refine ⟨fun k => ?_, ?_⟩
  · have left := board.queues k
    rwa [if_pos (mem_allKiosks k)] at left
  · have counts := board.counts
    rwa [sum_boardCount_of_kiosks] at counts

end Sys2Proof.Machine
end

section
/-! PROOFS. The outcome of an exercise frame (chapter 8, R153 to R155): what a reply is taken for, what it adds to the results,
and how the run then ends or goes on where nothing else claims the line. -/

namespace Sys2Proof.Machine

/-! ### Flags, and lines that are not free -/

theorem AlertId.mask_getLsbD_bit (a : AlertId) : a.mask.getLsbD a.bit = true := by cases a <;> rfl

theorem flag_raise (a : AlertId) (s : State) : (raise a s).flag a := by
  rw [State.flag, raise, State.setMgmt_mgmt, Mgmt.raise_flags, BitVec.getLsbD_or, a.mask_getLsbD_bit, Bool.or_true]

section
variable {ps : List Part} {s t : State}

theorem OnlyIn.exercise_eq (h : OnlyIn ps s t) (hx : .exercise ∉ ps := by decide) : t.exercise = s.exercise := h .exercise hx

theorem OnlyIn.flag {a : AlertId} (h : OnlyIn ps s t) (set : s.flag a) (hf : .flags ∉ ps := by decide) : t.flag a := by
  have same : t.mgmt.flags = s.mgmt.flags := h .flags hf
  rwa [State.flag, same]

theorem OnlyIn.link_eq (h : OnlyIn ps s t) (hl : .links ∉ ps := by decide) (l : LinkIx) : t.link l = s.link l := by
  have same : t.links = s.links := h .links hl
  rw [State.link, State.link, same]

end

theorem link_pick_of_ne {l k : LinkIx} (ne : k ≠ l) (s : State) : (pick k s).link l = s.link l := by
  unfold pick
  split
  · split
    · rfl
    · exact s.setLink_link_ne k _ l ne
    · exact s.setLink_link_ne k _ l ne
  · rfl

theorem pick_eq_self_of_not_free {l : LinkIx} {s : State} (busy : (s.link l).free = false) : pick l s = s :=
  if_neg (by simp [busy])

/-- The picks after an event leave a line that is not free (R136). -/
theorem link_settle_of_not_free {l : LinkIx} {s : State} (busy : (s.link l).free = false) :
    (settle s).link l = s.link l := by
  have picks : (pickAll s).link l = s.link l := by
    refine forEach_keeps (P := fun t => t.link l = s.link l) rfl fun k _ t same => ?_
    by_cases here : k = l
    · subst here
      rwa [pick_eq_self_of_not_free (same ▸ busy)]
    · rwa [link_pick_of_ne here]
  exact ((pickUp_only _).link_eq (by decide) l).trans picks

/-! ### What an outcome adds to the results (R154) -/

/-- The places in which two rows of bytes differ, of as many places as the first has. -/
theorem countP_zip_take_eq (sent got : List Byte) (long : sent.length ≤ got.length) :
    (sent.zip (got.take sent.length)).countP (fun (a, b) => a != b)
      = (List.range sent.length).countP fun i => decide (got.getD i 0 ≠ sent.getD i 0) := by
  induction sent generalizing got with
  | nil => rfl
  | cons a sent ih =>
    cases got with
    | nil => simp at long
    | cons b got =>
      have rest := ih got (Nat.le_of_succ_le_succ long)
      simp only [List.length_cons, List.take_succ_cons, List.zip_cons_cons, List.countP_cons, rest, List.range_succ_eq_map,
        List.countP_map, Function.comp_def, List.getD_cons_zero, List.getD_cons_succ, bne_iff_ne, decide_eq_true_eq,
        ne_comm (a := a)]

/-- The differing bytes that `Exercise.counted` adds to error bytes. -/
def Exercise.errors (x : Exercise) : Option (List Byte) → Nat
  | some bs => ((x.flight.getD []).zip bs).countP fun (a, b) => a != b
  | none => 0

theorem Exercise.errors_eq {x : Exercise} {sent got : List Byte} (flight : x.flight = some sent)
    (long : sent.length ≤ got.length) :
    x.errors (some (got.take sent.length))
      = (List.range sent.length).countP fun i => decide (got.getD i 0 ≠ sent.getD i 0) := by
  rw [Exercise.errors, flight, Option.getD_some, countP_zip_take_eq sent got long]

/-- Record `y` has the results of record `x` and of one more outcome: an echo with so many differing bytes, or none (R154). -/
def Exercise.Tallied (x : Exercise) (echo : Prop) (errors : Nat) (y : Exercise) : Prop :=
  y.errorBytes = min (x.errorBytes + errors) 4294967295
    ∧ (x.firstError = none → ¬echo ∨ errors ≠ 0 → y.firstError = some x.framesSent)
    ∧ (x.firstError ≠ none ∨ (echo ∧ errors = 0) → y.firstError = x.firstError)
    ∧ (echo → y.missing = x.missing) ∧ (¬echo → y.missing = min (x.missing + 1) 65535)

theorem Exercise.counted_firstError (x : Exercise) (e : Option (List Byte)) :
    (x.counted e).firstError
      = if x.firstError = none ∧ (¬e.isSome = true ∨ x.errors e ≠ 0) then some x.framesSent else x.firstError := by
  cases e <;> simp [Exercise.counted, Exercise.errors]

theorem Exercise.counted_errorBytes (x : Exercise) (e : Option (List Byte)) :
    (x.counted e).errorBytes = min (x.errorBytes + x.errors e) 4294967295 := by
  cases e <;> rfl

theorem Exercise.tallied_counted (x : Exercise) {e : Option (List Byte)} {echo : Prop} (judged : e.isSome = true ↔ echo) :
    x.Tallied echo (x.errors e) (x.counted e) := by
  refine ⟨x.counted_errorBytes e, fun clear bad => ?_, fun good => ?_, fun got => ?_, fun missed => ?_⟩
  · rw [x.counted_firstError, if_pos ⟨clear, bad.imp_left (mt judged.mp)⟩]
  · rw [x.counted_firstError, if_neg]
    rintro ⟨clear, bad⟩
    obtain latched | ⟨got, same⟩ := good
    · exact latched clear
    · exact bad.elim (absurd (judged.mpr got)) (absurd same)
  · obtain ⟨bs, rfl⟩ := Option.isSome_iff_exists.mp (judged.mpr got)
    rfl
  · obtain rfl : e = none := Option.not_isSome_iff_eq_none.mp (mt judged.mp missed)
    rfl

/-! ### What a reply is taken for (R153) -/

theorem isEchoOf_cons_cons (a : Addr) (k b : Byte) (rest : List Byte) :
    isEchoOf a (k :: b :: rest) ↔ (k == 0x09 && b.toNat == a.val && rest.length == 18) = true := by
  simp only [isEchoOf, List.length_cons, List.getD_cons_zero, List.getD_cons_succ, Bool.and_eq_true, beq_iff_eq]
  constructor
  · rintro ⟨len, kind, addr⟩
    exact ⟨⟨kind, addr⟩, by omega⟩
  · rintro ⟨⟨kind, addr⟩, len⟩
    exact ⟨by omega, kind, addr⟩

theorem judgeEcho_of_isEchoOf {x : Exercise} {data : List Byte} (h : isEchoOf x.panel data) :
    judgeEcho x data = some ((data.drop 2).take 16) := by
  match data with
  | [] | [_] => simp [isEchoOf] at h
  | k :: b :: rest => exact if_pos ((isEchoOf_cons_cons ..).mp h)

theorem judgeEcho_of_not_isEchoOf {x : Exercise} {data : List Byte} (h : ¬isEchoOf x.panel data) :
    judgeEcho x data = none := by
  match data with
  | [] | [_] => rfl
  | k :: b :: rest => exact if_neg (mt (isEchoOf_cons_cons ..).mpr h)

theorem judgeEcho_isSome (x : Exercise) (data : List Byte) : (judgeEcho x data).isSome = true ↔ isEchoOf x.panel data := by
  by_cases h : isEchoOf x.panel data
  · simp [judgeEcho_of_isEchoOf h, h]
  · simp [judgeEcho_of_not_isEchoOf h, h]

section
variable {l : LinkIx} {s : State}

theorem awaitingEcho_of_runs {sent : List Byte} (runs : s.runs l = true) (flight : s.exercise.flight = some sent)
    (awaiting : s.exercise.awaiting = true) : s.awaitingEcho l = true := by
  have inFlight : s.exerciseInFlight l = true := by
    rw [State.exerciseInFlight, flight]
    exact Bool.and_eq_true_iff.mpr ⟨runs, rfl⟩
  exact Bool.and_eq_true_iff.mpr ⟨inFlight, awaiting⟩

section
variable (activity : (s.link l).activity = .exercise) (waits : s.awaitingEcho l = true)
include activity waits

theorem replyComplete_of_awaitingEcho (data : List Byte) :
    replyComplete l data s = exerciseOutcome (judgeEcho s.exercise data) s := by
  simp only [replyComplete, activity, waits, if_true]

theorem replyMissing_of_awaitingEcho : replyMissing l s = exerciseOutcome none s := by
  simp only [replyMissing, activity, waits, if_true]

end

theorem effect_of_awake (awake : s.inReset = false) (f : State → State) : effect s f = .next (settle (f s)) := by
  simp only [effect, act, awake, Bool.false_eq_true, if_false]

/-- Every end of a reply window is an outcome: of a whole reply frame what it is judged to be, and otherwise a missing echo. -/
theorem exec_reply_of_awaitingEcho (awake : s.inReset = false) (activity : (s.link l).activity = .exercise)
    (waits : s.awaitingEcho l = true) {data : List Byte} {c : Instr}
    (hc : c ∈ [Instr.echo l data, .ack l data, .replyWindowEnd l, .replyFrameBroken l]) :
    ∃ e, exec c s = .next (settle (exerciseOutcome e s))
      ∧ (e.isSome = true ↔ (c = .echo l data ∨ c = .ack l data) ∧ isEchoOf s.exercise.panel data)
      ∧ (e.isSome = true → e = some ((data.drop 2).take 16)) := by
  have whole : effect s (replyComplete l data) = .next (settle (exerciseOutcome (judgeEcho s.exercise data) s)) := by
    rw [effect_of_awake awake, replyComplete_of_awaitingEcho activity waits]
  have missing : effect s (replyMissing l) = .next (settle (exerciseOutcome none s)) := by
    rw [effect_of_awake awake, replyMissing_of_awaitingEcho activity waits]
  have judged := judgeEcho_isSome s.exercise data
  have payload (h : (judgeEcho s.exercise data).isSome = true) := judgeEcho_of_isEchoOf (judged.mp h)
  simp only [List.mem_cons, List.not_mem_nil, or_false] at hc
  rcases hc with rfl | rfl | rfl | rfl
  · exact ⟨_, whole, by simpa using judged, payload⟩
  · exact ⟨_, whole, by simpa using judged, payload⟩
  · exact ⟨_, missing, by simp, by simp⟩
  · exact ⟨_, missing, by simp, by simp⟩

end

/-! ### How the run ends or goes on (R155) -/

/-- The record of a run that has ended. -/
def Exercise.ended (x : Exercise) (state : ExState) (cause : EndCause) : Exercise :=
  { x with state := state, cause := cause, endRequested := false }

theorem freeMoment_of_unclaimed {l : LinkIx} {s : State} (unclaimed : s.lineUnclaimed l) : freeMoment l s = pick l s := by
  obtain ⟨noAdoption, noStart⟩ := unclaimed
  simp only [freeMoment, adoptPending, noAdoption, Bool.false_eq_true, if_false, noStart]

/-- The run has ended and its line has just fallen free. -/
def runEnded (state : ExState) (cause : EndCause) (s : State) : State :=
  raise .exerciseEnded ((s.setExercise (s.exercise.ended state cause)).setLink s.exercise.link
    { s.link s.exercise.link with activity := .idleFill })

theorem endRun_eq (state : ExState) (cause : EndCause) (s : State) :
    endRun state cause s = freeMoment s.exercise.link (runEnded state cause s) := rfl

section
variable {s : State} (unclaimed : s.lineUnclaimed s.exercise.link) (state : ExState) (cause : EndCause)
include unclaimed

theorem runEnded_lineUnclaimed : (runEnded state cause s).lineUnclaimed s.exercise.link := by
  obtain ⟨noAdoption, noStart⟩ := unclaimed
  have selected : (runEnded state cause s).mgmt.selected = s.mgmt.selected := raise_only _ _ .selected (by decide)
  have bank : ((runEnded state cause s).link s.exercise.link).bank = (s.link s.exercise.link).bank := by
    rw [runEnded, (raise_only _ _).link_eq, State.setLink_link_self]
  refine ⟨?_, noStart⟩
  rwa [State.adoptionPending, selected, bank]

theorem endRun_of_unclaimed :
    (endRun state cause s).exercise = s.exercise.ended state cause ∧ (endRun state cause s).flag .exerciseEnded := by
  rw [endRun_eq, freeMoment_of_unclaimed (runEnded_lineUnclaimed unclaimed state cause)]
  exact ⟨(pick_only _ _).exercise_eq, (pick_only _ _).flag (flag_raise _ _)⟩

end

section
variable {s : State} (e : Option (List Byte)) (unclaimed : s.lineUnclaimed s.exercise.link)
include unclaimed

theorem exerciseOutcome_of_window (last : s.exercise.window.frames = some s.exercise.framesSent) :
    (exerciseOutcome e s).exercise = (s.exercise.counted e).ended .done .window
      ∧ (exerciseOutcome e s).flag .exerciseEnded := by
  have run : exerciseOutcome e s = endRun .done .window (s.setExercise (s.exercise.counted e)) := if_pos last
  rw [run]
  exact endRun_of_unclaimed (s := s.setExercise (s.exercise.counted e)) unclaimed _ _

theorem exerciseOutcome_of_endRequested (more : s.exercise.window.frames ≠ some s.exercise.framesSent)
    (requested : s.exercise.endRequested = true) :
    (exerciseOutcome e s).exercise = (s.exercise.counted e).ended .aborted s.exercise.cause
      ∧ (exerciseOutcome e s).flag .exerciseEnded := by
  have run : exerciseOutcome e s = endRun .aborted s.exercise.cause (s.setExercise (s.exercise.counted e)) :=
    (if_neg more).trans (if_pos requested)
  rw [run]
  exact endRun_of_unclaimed (s := s.setExercise (s.exercise.counted e)) unclaimed _ _

theorem exerciseOutcome_of_goes_on (more : s.exercise.window.frames ≠ some s.exercise.framesSent)
    (wanted : s.exercise.endRequested = false) :
    exerciseOutcome e s = s.setExercise (s.exercise.counted e).sendFrame := by
  have noAdoption : (s.setExercise (s.exercise.counted e)).adoptionPending s.exercise.link = false := unclaimed.1
  have stays : adoptPending s.exercise.link (s.setExercise (s.exercise.counted e)) = s.setExercise (s.exercise.counted e) :=
    if_neg (by simp [noAdoption])
  calc exerciseOutcome e s
      = sendExercise (adoptPending s.exercise.link (s.setExercise (s.exercise.counted e))) :=
        (if_neg more).trans (if_neg (by simp [Exercise.counted, wanted]))
    _ = sendExercise (s.setExercise (s.exercise.counted e)) := by rw [stays]

/-- The end of a run and the next frame leave the results as they are counted. -/
theorem exerciseOutcome_tallied {echo : Prop} (judged : e.isSome = true ↔ echo) :
    s.exercise.Tallied echo (s.exercise.errors e) (exerciseOutcome e s).exercise := by
  have tallied := s.exercise.tallied_counted judged
  by_cases last : s.exercise.window.frames = some s.exercise.framesSent
  · rw [(exerciseOutcome_of_window e unclaimed last).1]
    exact tallied
  · cases requested : s.exercise.endRequested with
    | true =>
      rw [(exerciseOutcome_of_endRequested e unclaimed last requested).1]
      exact tallied
    | false =>
      rw [exerciseOutcome_of_goes_on e unclaimed last requested]
      exact tallied

end

/-! ### The statement -/

/-- Settles O49: every end of the reply window is one `exerciseOutcome`, whose results are `exerciseOutcome_tallied` and whose
three ends are `exerciseOutcome_of_window`, `exerciseOutcome_of_endRequested` and `exerciseOutcome_of_goes_on`; the picks that follow
touch neither the exercise nor its line. -/
theorem echoIsCompared : Obligations.EchoIsCompared := by
  intro l sent data s awake activity runs flight sentLength awaiting noStart noAdoption x c hc echo errors ofEcho ofMissing after
  obtain ⟨running, onLink⟩ : x.state = .running ∧ x.link = l := by simpa [State.runs] using runs
  have unclaimed : s.lineUnclaimed x.link := ⟨onLink ▸ noAdoption, by simp [noStart]⟩
  obtain ⟨e, run, judged, payload⟩ :=
    exec_reply_of_awaitingEcho awake activity (awaitingEcho_of_runs runs flight awaiting) hc
  have differing : x.errors e = errors := by
    by_cases got : echo
    · obtain ⟨-, dataLength, -⟩ := id got
      have long : sent.length ≤ (data.drop 2).length := by
        rw [List.length_drop]
        omega
      have count := Exercise.errors_eq flight long
      rw [sentLength] at count
      rw [payload (judged.mpr got), ofEcho got, count]
    · rw [ofMissing got, Option.not_isSome_iff_eq_none.mp (mt judged.mp got), Exercise.errors]
  have kept : (settle (exerciseOutcome e s)).exercise = (exerciseOutcome e s).exercise := (settle_only _).exercise_eq
  refine ⟨_, run, ?_, fun last => ?_, fun more requested => ?_, fun more wanted => ?_⟩
  · have tallied := exerciseOutcome_tallied e unclaimed judged
    rwa [← kept, differing] at tallied
  · obtain ⟨record, flag⟩ := exerciseOutcome_of_window e unclaimed last
    rw [kept, record]
    exact ⟨rfl, rfl, rfl, (settle_only _).flag flag⟩
  · obtain ⟨record, flag⟩ := exerciseOutcome_of_endRequested e unclaimed more requested
    rw [kept, record]
    exact ⟨rfl, rfl, rfl, (settle_only _).flag flag⟩
  · have next := exerciseOutcome_of_goes_on e unclaimed more wanted
    have busy : ((exerciseOutcome e s).link l).free = false := by
      rw [next, State.setExercise_link, Link.free, activity]
      rfl
    rw [link_settle_of_not_free busy, kept, next]
    exact ⟨running, rfl, rfl, activity⟩

end Sys2Proof.Machine
end

section
/-! PROOFS. What a recomposition, and with it a good frame, leaves of the panel lines (R108, R112, R166): each link keeps its bank
in use, and is at a sequence boundary exactly where it was. No recomposition touches the return path: the picks come after it. -/

namespace Sys2Proof.Machine

/-- From `s` to `t` only the named parts change, and of the lines neither the bank in use nor whether they are at a boundary. -/
structure KeepsLines (ps : List Part) (s t : State) : Prop where
  only : OnlyIn ps s t
  bank : ∀ l, (t.link l).bank = (s.link l).bank
  boundary : ∀ l, t.atBoundary l = s.atBoundary l

/-- What a recomposition itself changes: no pick of the return path belongs to it. -/
def recomposeParts : List Part := [.contents, .lanterns, .exercise, .flags, .links, .newly]

/-! ### Putting changes together -/

section
variable {ps qs rs : List Part} {s t u : State}

theorem OnlyIn.up_eq (h : OnlyIn ps s t) (hu : .returnPath ∉ ps := by decide) : t.up = s.up := h .returnPath hu

theorem OnlyIn.address_eq (h : OnlyIn ps s t) (ha : .address ∉ ps := by decide) : t.address = s.address :=
  congrArg byteOf (h .address ha)

theorem OnlyIn.selected_eq (h : OnlyIn ps s t) (hs : .selected ∉ ps := by decide) : t.mgmt.selected = s.mgmt.selected :=
  h .selected hs

theorem KeepsLines.of_only (h : OnlyIn ps s t) (hl : .links ∉ ps := by decide) (hx : .exercise ∉ ps := by decide) :
    KeepsLines ps s t := by
  have links := h.link_eq hl
  refine ⟨h, fun l => by rw [links], fun l => ?_⟩
  rw [State.atBoundary, State.atBoundary, State.exerciseInFlight, State.exerciseInFlight, links, h.exercise_eq hx]

theorem KeepsLines.refl (ps : List Part) (s : State) : KeepsLines ps s s := ⟨OnlyIn.refl ps s, fun _ => rfl, fun _ => rfl⟩

theorem KeepsLines.comp (h : KeepsLines ps s t) (k : KeepsLines qs t u) (hp : ps ⊆ rs := by decide)
    (hq : qs ⊆ rs := by decide) : KeepsLines rs s u :=
  ⟨h.only.comp k.only hp hq, fun l => (k.bank l).trans (h.bank l), fun l => (k.boundary l).trans (h.boundary l)⟩

theorem KeepsLines.ite {p : Prop} [Decidable p] (h : p → KeepsLines ps s t) (k : ¬p → KeepsLines ps s u) :
    KeepsLines ps s (if p then t else u) := by
  split
  · exact h ‹_›
  · exact k ‹_›

theorem KeepsLines.forEach {α : Type} {f : α → State → State} (xs : List α) (s : State)
    (hf : ∀ x s, KeepsLines ps s (f x s)) : KeepsLines ps s (forEach xs f s) :=
  forEach_keeps (P := KeepsLines ps s) (.refl ps s) fun x _ _ h => h.comp (hf x _) (fun _ => id) fun _ => id

end

/-! ### A recomposition -/

theorem raisePhase_keepsLines (l : LinkIx) (s : State) : KeepsLines [.links] s (raisePhase l s) := by
  have kept : ∀ k, ((raisePhase l s).link k).bank = (s.link k).bank
      ∧ ((raisePhase l s).link k).sequence = (s.link k).sequence := fun k => by
    rw [raisePhase, State.setLink_link]
    split
    · next here => subst here; exact ⟨rfl, rfl⟩
    · exact ⟨rfl, rfl⟩
  refine ⟨raisePhase_only s l, fun k => (kept k).1, fun k => ?_⟩
  rw [State.atBoundary, (kept k).2]
  rfl

theorem takeContent_keepsLines (p : PanelIx) (c : Content) (s : State) :
    KeepsLines [.contents, .links] s (takeContent p c s) :=
  .ite (fun _ => (KeepsLines.of_only (setContent_only s p _)).comp (raisePhase_keepsLines _ _)) fun _ =>
    (KeepsLines.of_only (setContent_only s p _)).comp (.refl [] _)

/-- A mark on the run changes neither its link nor the frame in flight. -/
theorem requestEnd_keepsLines (cause : EndCause) (s : State) : KeepsLines [.exercise] s (requestEnd cause s) :=
  .ite (fun _ => ⟨setExercise_only s _, fun _ => rfl, fun _ => rfl⟩) fun _ => .refl _ s

theorem noteUrgent_keepsLines (p : PanelIx) (s : State) : KeepsLines [.exercise] s (noteUrgent p s) :=
  .ite (fun _ => requestEnd_keepsLines _ s) fun _ => .refl _ s

theorem commitContent_keepsLines (p : PanelIx) (c : Content) (s : State) :
    KeepsLines [.contents, .lanterns, .links, .exercise] s (commitContent p c s) := by
  refine .ite (fun _ => ?same) fun _ => ?differs
  case same => exact (KeepsLines.of_only (setContent_only s p _)).comp (.of_only (noteChime_only _ p c _))
  case differs =>
    have taken : KeepsLines [.contents, .lanterns, .links] s (noteChime p c true (takeContent p c s)) :=
      (takeContent_keepsLines p c s).comp (.of_only (noteChime_only _ p c _))
    exact taken.comp (noteUrgent_keepsLines p _)

theorem recompose_keepsLines (p : PanelIx) (s : State) : KeepsLines recomposeParts s (recompose p s) := by
  have readied : OnlyIn [.contents, .flags, .newly] s (captureHeld p (decideMismatch p s)) :=
    (decideMismatch_only s p).comp (captureHeld_only _ p)
  exact (KeepsLines.of_only readied).comp (commitContent_keepsLines p _ _)

theorem rerouted_keepsLines (p : PanelIx) (s : State) : KeepsLines recomposeParts s (rerouted p s) :=
  (KeepsLines.of_only (syncLantern_only s p)).comp (recompose_keepsLines p _)

/-! ### A good frame (R162, R166) -/

theorem dispatchRestored_keepsLines (s : State) : KeepsLines recomposeParts s (dispatchRestored s) := by
  have discarded : OnlyIn [.contents, .flags, .newly] s
      (forEach allPanels (fun p s => s.setContent p { s.content p with held := none }) (raise .dispatchRestored s)) :=
    (raise_only s _).comp (forEach_only (ps := [.contents]) _ _ fun p s => setContent_only s p _)
  exact (KeepsLines.of_only discarded).comp (.forEach _ _ recompose_keepsLines)

theorem goodFrame_keepsLines (s : State) : KeepsLines (.loss :: .counters :: recomposeParts) s (goodFrame s) := by
  have counted : KeepsLines [.loss, .counters, .flags, .newly] s
      ((bump .goodFrames s).setLoss { asserted := false, countdown := (bump .goodFrames s).profile.lossTimeout }) :=
    .of_only ((bump_only s _).comp (setLoss_only _ _))
  exact .ite (fun _ => counted.comp (dispatchRestored_keepsLines _)) fun _ => counted.comp (.refl [] _)

end Sys2Proof.Machine
end

section
/-! PROOFS. A management request as one whole good frame (R163, R171): the state in which its rule finds the part, and the REPLY
that stands after the picks that follow (R168). -/

namespace Sys2Proof.Machine

/-! ### What the free transmitter begins (R168) -/

/-- A transmitter free in `u` sends in `v` something else than a REPLY: an ALERT, unless a return frame was kept. -/
def Up.BeganOther (u v : Up) : Prop :=
  u.tx = none ∧ ∃ x, v.tx = some x ∧ (∀ f, x ≠ .reply f) ∧ (u.order = [] → ∃ g, x = .alert g)

theorem pickUp_of_sending {s : State} {x : UTx} (sends : s.up.tx = some x) : pickUp s = s :=
  if_pos (by rw [sends]; rfl)

theorem pickUp_of_reply {s : State} {f : UpFrame} (free : s.up.tx = none) (reply : s.up.reply = some f) :
    pickUp s = beginReply f s := by
  simp [pickUp, free, reply]

/-- With no REPLY pending, the pick begins another frame, and only where one waits; otherwise it leaves all as it was. -/
theorem pickUp_of_no_reply {s : State} (reply : s.up.reply = none) :
    (pickUp s).up.reply = none
      ∧ ((pickUp s).up.tx = s.up.tx
        ∨ (s.up.BeganOther (pickUp s).up ∧ ¬(s.up.order = [] ∧ s.mgmt.alertPending = false))) := by
  cases sends : s.up.tx with
  | some x =>
    rw [pickUp_of_sending sends]
    exact ⟨reply, .inl sends⟩
  | none =>
    cases order : s.up.order with
    | nil =>
      cases alert : s.mgmt.alertPending with
      | false =>
        have stays : pickUp s = s := by simp [pickUp, sends, reply, order, alert]
        rw [stays]
        exact ⟨reply, .inl sends⟩
      | true =>
        have picks : pickUp s = beginAlert s := by simp [pickUp, sends, reply, order, alert]
        rw [picks]
        exact ⟨reply, .inr ⟨⟨sends, _, rfl, nofun, fun _ => ⟨_, rfl⟩⟩, by simp⟩⟩
    | cons i rest =>
      have picks : pickUp s = beginAlert s ∨ pickUp s = beginReturn i rest s := by
        cases alert : s.mgmt.alertPending with
        | false => exact .inr (by simp [pickUp, sends, reply, order, alert])
        | true =>
          have chooses : pickUp s = if s.up.turn = .alert then beginAlert s else beginReturn i rest s := by
            simp [pickUp, sends, reply, order, alert]
          by_cases turn : s.up.turn = .alert
          · exact .inl (chooses.trans (if_pos turn))
          · exact .inr (chooses.trans (if_neg turn))
      rcases picks with picks | picks
      · rw [picks]
        exact ⟨reply, .inr ⟨⟨sends, _, rfl, nofun, fun _ => ⟨_, rfl⟩⟩, by simp⟩⟩
      · rw [picks]
        exact ⟨reply, .inr ⟨⟨sends, _, rfl, nofun, fun empty => by simp [order] at empty⟩, by simp⟩⟩

/-- An increment that does not saturate its counter leaves the newly raised set as it was (R180). -/
theorem Mgmt.bump_newly {c : CounterId} {m : Mgmt} (room : m.counter c ≠ 65534) : (m.bump c).newly = m.newly := by
  have unsaturated : m.counter c + 1 ≠ Config.counterMax := fun full => room (Nat.succ.inj full)
  dsimp only [Mgmt.bump]
  rw [if_neg unsaturated]
  split <;> rfl

/-- A frame that begins now makes the transmitter pick: it breaks a frame, and its count saturates or a frame was left waiting. -/
def State.StartPicks (s : State) : Prop :=
  s.breaksNow = 1 ∧ (s.mgmt.counter .brokenFrames = 65534 ∨ ¬s.UpSettled)

/-- The START of a whole frame either leaves the return path as it was, or breaks the frame being received: then the transmitter
picks behind the count of it. -/
theorem freshFrame_up (s : State) :
    (freshFrame s).up = s.up
      ∨ (s.breaksNow = 1
        ∧ ∃ v, OnlyIn [.receiver, .cPort] s v ∧ (freshFrame s).up = (pickUp (bump .brokenFrames v)).up) := by
  unfold freshFrame
  split
  · exact .inl rfl
  · next notFresh =>
    cases inFrame : s.rx.inFrame with
    | false =>
      have begins : uStart s = uBegin s := if_pos (by simp [inFrame])
      exact .inl (begins ▸ (uBegin_only s).up_eq)
    | true =>
      refine .inr ⟨by simpa [State.breaksNow, inFrame] using notFresh, ?_⟩
      have inside : ¬(!s.rx.inFrame) = true := by simp [inFrame]
      cases forwarding : s.rx.forwarding with
      | true =>
        refine ⟨uOutside (pushC .abort s), (pushC_only s _).comp (setRx_only _ _), ?_⟩
        dsimp only [uStart]
        rw [if_neg inside, if_pos forwarding]
        rfl
      | false =>
        refine ⟨uOutside (undecidedToIdle s), (undecidedToIdle_only s).comp (setRx_only _ _), ?_⟩
        have begins : uStart s = uBegin (uBreak (undecidedToIdle s)) := (if_neg inside).trans (if_neg (by simp [forwarding]))
        rw [begins, (uBegin_only _).up_eq]
        rfl

/-- Where no REPLY is pending, the START of a whole frame leaves none pending, and it has the transmitter begin another frame only
where it picks. -/
theorem freshFrame_of_no_reply {s : State} (awake : s.inReset = false) (reply : s.up.reply = none) :
    (freshFrame s).up.reply = none
      ∧ ((freshFrame s).up.tx = s.up.tx ∨ (s.StartPicks ∧ s.up.BeganOther (freshFrame s).up)) := by
  rcases freshFrame_up s with same | ⟨breaks, v, only, picked⟩
  · rw [same]
    exact ⟨reply, .inl rfl⟩
  · have vUp : (bump .brokenFrames v).up = s.up := only.up_eq
    obtain ⟨noReply, sends⟩ := pickUp_of_no_reply (s := bump .brokenFrames v) (by rw [vUp, reply])
    rw [vUp] at sends
    rw [picked]
    refine ⟨noReply, sends.imp_right fun ⟨began, waits⟩ => ⟨⟨breaks, ?_⟩, began⟩⟩
    refine Decidable.or_iff_not_imp_left.mpr fun room settled => ?_
    obtain ⟨-, order, alert⟩ := settled awake began.1
    have counter : v.mgmt.counter .brokenFrames = s.mgmt.counter .brokenFrames := only.counter_eq (by decide) _
    have newly : (v.mgmt.bump .brokenFrames).newly = s.mgmt.newly :=
      (Mgmt.bump_newly (counter ▸ room)).trans (only .newly (by decide))
    have pending : (bump .brokenFrames v).mgmt.alertPending = s.mgmt.alertPending := congrArg (· != 0) newly
    exact waits ⟨order, pending.trans alert⟩

/-! ### The state in which a request's rule finds the part -/

/-- What becomes of the frame of a request to this destination. -/
def requestTarget : Dest → Target
  | .own => .own
  | .all => .all

theorem targetOf_byte {s : State} {dest : Dest} (takes : s.Takes dest) : targetOf s (Dest.byte s dest) = requestTarget dest := by
  cases dest with
  | all => rfl
  | own =>
    obtain ⟨-, named⟩ := takes
    obtain ⟨-, address⟩ := named rfl
    have byte : (byteOf s.mgmt.address).toNat = s.mgmt.address := Nat.mod_eq_of_lt (by omega)
    simp only [targetOf, Dest.byte, byte, address, if_true, requestTarget]

/-- The characters of a whole request frame that carries no table entries have arrived. -/
def requestReceived (dest : Dest) (kind tag : Byte) (payload : List Byte) (s : State) : State :=
  putWrite .fresh
    (uOutside (frameOnC (requestTarget dest) (withCrc ([kind, Dest.byte s dest, tag] ++ payload)) (freshFrame s)))

/-- The frame has arrived, and is good: it remains to be worked. -/
def requestArrived (dest : Dest) (kind tag : Byte) (payload : List Byte) (s : State) : State :=
  storeHeld (goodFrame (requestReceived dest kind tag payload s))

/-- What the arrival of a whole request leaves of a state `s` in which `u` finds the part. -/
structure Arrived (s u : State) : Prop where
  lines : KeepsLines frameParts s u
  up : s.up.reply = none →
    u.up.reply = none ∧ (u.up.tx = s.up.tx ∨ (s.StartPicks ∧ s.up.BeganOther u.up))

theorem storeHeld_only_of_none_held {s : State} (noneHeld : s.rx.write.held = []) : OnlyIn [.receiver] s (storeHeld s) := by
  dsimp only [storeHeld]
  rw [noneHeld]
  exact putWrite_only s _

theorem requestArrived_arrived (dest : Dest) (kind tag : Byte) (payload : List Byte) {s : State} (awake : s.inReset = false) :
    Arrived s (requestArrived dest kind tag payload s) := by
  have received : OnlyIn [.receiver, .cPort] (freshFrame s) (requestReceived dest kind tag payload s) :=
    (frameOnC_only _ _ _).comp ((setRx_only _ _).trans (putWrite_only _ _))
  have noneHeld : (goodFrame (requestReceived dest kind tag payload s)).rx.write.held = [] := by
    have rx : (goodFrame (requestReceived dest kind tag payload s)).rx = (requestReceived dest kind tag payload s).rx :=
      (goodFrame_keepsLines _).only .receiver (by decide)
    rw [rx]
    rfl
  have good : KeepsLines (.receiver :: .loss :: .counters :: recomposeParts) (requestReceived dest kind tag payload s)
      (requestArrived dest kind tag payload s) :=
    (goodFrame_keepsLines _).comp (.of_only (storeHeld_only_of_none_held noneHeld))
  have behindStart : KeepsLines (.receiver :: .cPort :: .loss :: .counters :: recomposeParts) (freshFrame s)
      (requestArrived dest kind tag payload s) :=
    (KeepsLines.of_only received).comp good
  refine ⟨(KeepsLines.of_only (freshFrame_only s)).comp behindStart, fun reply => ?_⟩
  rw [behindStart.only.up_eq]
  exact freshFrame_of_no_reply awake reply

/-- A request that the part takes is worked on the state its frame's arrival leaves, and the picks follow. -/
theorem management_of_takes {s : State} {dest : Dest} (takes : s.Takes dest) {kind : Byte} (tag : Byte) {payload : List Byte}
    (noEntries : ¬(kind = kindTableWrite ∨ kind = kindTableContinue)) (short : payload.length ≤ maxPayload) :
    management kind dest tag payload s
      = .next (settle (uOutside (takeFrame (requestTarget dest) kind tag payload (requestArrived dest kind tag payload s)))) := by
  have toThisNode : requestTarget dest = .own ∨ requestTarget dest = .all := by cases dest <;> simp [requestTarget]
  have received : receive kind (Dest.byte s dest) tag payload s
      = uOutside (takeFrame (requestTarget dest) kind tag payload (requestArrived dest kind tag payload s)) := by
    dsimp only [receive]
    rw [if_neg (Nat.not_lt.mpr short), targetOf_byte takes, if_pos toThisNode, writePayload, if_neg noEntries]
    rfl
  rw [management, effect_next s _ takes.1, received]

/-! ### The request's rule, and its REPLY -/

theorem request_of_no_reply {s : State} {dest : Dest} (idle : dest = .own → s.up.reply = none) (work : State → State) :
    request dest work s = work s :=
  if_neg fun ⟨own, pending⟩ => by simp [idle own] at pending

theorem asking_own_of_no_reply {s : State} (idle : s.up.reply = none) (work : State → State) :
    asking .own work s = work s := request_of_no_reply (fun _ => idle) work

/-- The picks of the panel links leave the return path as it is, and the transmitter picks behind them. -/
theorem settle_of_sending {s : State} {x : UTx} (sends : s.up.tx = some x) : (settle s).up = s.up := by
  have picks : (pickAll s).up = s.up := (pickAll_only s).up_eq
  rw [settle, pickUp_of_sending (x := x) (by rw [picks, sends]), picks]

theorem settle_of_free {s : State} {f : UpFrame} (free : s.up.tx = none) (reply : s.up.reply = some f) :
    (settle s).up.tx = some (.reply f) ∧ (settle s).up.reply = none := by
  have picks : (pickAll s).up = s.up := (pickAll_only s).up_eq
  rw [settle, pickUp_of_reply (f := f) (by rw [picks, free]) (by rw [picks, reply])]
  exact ⟨rfl, rfl⟩

theorem settle_of_no_reply {s : State} (reply : s.up.reply = none) :
    (settle s).up.reply = none ∧ ((settle s).up.tx = s.up.tx ∨ s.up.BeganOther (settle s).up) := by
  have picks : (pickAll s).up = s.up := (pickAll_only s).up_eq
  obtain ⟨noReply, sends⟩ := pickUp_of_no_reply (s := pickAll s) (by rw [picks, reply])
  rw [picks] at sends
  rw [settle]
  exact ⟨noReply, sends.imp_right And.left⟩

/-- A request whose rule, having changed no part of the return path, answers it, and then changes neither the return path nor the
address, has been told its answer when the picks have followed. -/
theorem told_settle {ps qs : List Part} {s u v w : State} {dest : Dest} {tag kind : Byte} {r : Result} {data : List Byte}
    (arrived : Arrived s u) (idle : dest = .own → s.up.reply = none) (worked : OnlyIn ps u v)
    (after : OnlyIn qs (answer dest tag kind r data v) w) (hp : .returnPath ∉ ps := by decide)
    (hq : .returnPath ∉ qs := by decide) (ha : .address ∉ qs := by decide) :
    Told dest s (settle w) tag kind r data := by
  have vUp : v.up = u.up := worked.up_eq hp
  have wUp : w.up = (answer dest tag kind r data v).up := after.up_eq hq
  cases dest with
  | all =>
    intro reply
    obtain ⟨noReply, sends⟩ := arrived.up reply
    have up : w.up = u.up := wUp.trans vUp
    obtain ⟨noReply', sends'⟩ := settle_of_no_reply (s := w) (by rw [up, noReply])
    rw [up] at sends'
    refine ⟨noReply', fun f replies => ?_⟩
    have uReplies : u.up.tx = some (.reply f) := by
      rcases sends' with same | ⟨-, x, begun, other, -⟩
      · exact same.symm.trans replies
      · exact absurd (Option.some.inj (begun.symm.trans replies)) (other f)
    rcases sends with same | ⟨-, -, x, begun, other, -⟩
    · exact same.symm.trans uReplies
    · exact absurd (Option.some.inj (begun.symm.trans uReplies)) (other f)
  | own =>
    obtain ⟨-, sends⟩ := arrived.up (idle rfl)
    have tx : w.up.tx = u.up.tx := by rw [wUp, ← vUp]; rfl
    have reply : w.up.reply = some (replyFrame v tag kind r data) := by rw [wUp]; rfl
    have source : (settle w).address = v.address := by
      rw [(settle_only w).address_eq, after.address_eq ha, (answer_only v _ _ _ _ _).address_eq]
    refine ⟨replyFrame v tag kind r data, ?_, rfl, source.symm, rfl, rfl, rfl⟩
    rcases sends with same | ⟨picks, free, x, begun, -, alert⟩
    · cases sTx : s.up.tx with
      | some x =>
        have stays := settle_of_sending (tx.trans (same.trans sTx))
        simp only [Replied, sTx, stays, tx, same, reply, and_self]
      | none =>
        have begins := settle_of_free (tx.trans (same.trans sTx)) reply
        simp only [Replied, sTx, begins, and_self, true_or]
    · have stays := settle_of_sending (tx.trans begun)
      simp only [Replied, free]
      exact .inr ⟨.inr (.inr picks), by rw [stays, reply], x, by rw [stays, tx, begun], alert⟩

end Sys2Proof.Machine
end

section
/-! PROOFS. TABLE READ (R177) and BANK SELECT (R107, R108, R179). -/

namespace Sys2Proof.Machine

/-! ### TABLE READ -/

section
variable {table start count : Byte}

theorem judgeRead_of_badTable (h : 11 ≤ table.toNat) : judgeRead table start count = .error .badTable := by
  rw [judgeRead, indexOf, dif_neg (by omega)]

variable {T : Fin 11} (named : table.toNat = T.val)
include named

theorem indexOf_of_named : indexOf 11 table.toNat = some T := by
  rw [indexOf, dif_pos (by omega)]
  exact congrArg some (Fin.ext named)

theorem judgeRead_of_badRange (beyond : entryCount T ≤ start.toNat) : judgeRead table start count = .error .badRange := by
  simp only [judgeRead, indexOf_of_named named, beyond, if_true]

variable (within : start.toNat < entryCount T)
include within

theorem judgeRead_of_badValue (zero : count.toNat = 0) : judgeRead table start count = .error .badValue := by
  simp only [judgeRead, indexOf_of_named named, Nat.not_le.mpr within, zero, if_true, if_false]

theorem judgeRead_of_accepted (positive : 0 < count.toNat) : judgeRead table start count = .ok T := by
  simp only [judgeRead, indexOf_of_named named, Nat.not_le.mpr within, Nat.ne_of_gt positive, if_false]

end

section
variable {s : State} (idle : s.up.reply = none) (tag : Byte) {table start count : Byte}
include idle

theorem tableReadRequest_of_refused {r : Result} (judged : judgeRead table start count = .error r) :
    tableReadRequest .own tag [table, start, count] s = answer .own tag kindTableRead r [] (closeWrite s) := by
  rw [tableReadRequest, asking_own_of_no_reply idle]
  simp only [closing, payload3, judged]

theorem tableReadRequest_of_accepted {T : Fin 11} (judged : judgeRead table start count = .ok T) :
    tableReadRequest .own tag [table, start, count] s
      = answer .own tag kindTableRead .accepted (readData (closeWrite s) T start.toNat count.toNat) (closeWrite s) := by
  rw [tableReadRequest, asking_own_of_no_reply idle]
  simp only [closing, payload3, judged]

theorem tableReadRequest_only :
    OnlyIn [.openWrite, .returnPath] s (tableReadRequest .own tag [table, start, count] s) := by
  cases judged : judgeRead table start count with
  | error r => exact tableReadRequest_of_refused idle tag judged ▸ (closeWrite_only s).comp (answer_only _ _ _ _ _ _)
  | ok T => exact tableReadRequest_of_accepted idle tag judged ▸ (closeWrite_only s).comp (answer_only _ _ _ _ _ _)

end

theorem byteOf_toNat (b : Byte) : byteOf b.toNat = b :=
  (BitVec.ofNat_toNat 8 b).trans (BitVec.setWidth_eq b)

/-- Settles O27: the arrival of the frame leaves the tables, `judgeRead` has one lemma for each refusal and one for acceptance,
and what is answered stands by `told_settle`. -/
theorem tableReadReturnsEntries : Obligations.TableReadReturnsEntries := by
  intro tag table start count s takes
  obtain ⟨awake, named⟩ := id takes
  obtain ⟨idle, -⟩ := named rfl
  have run := management_of_takes takes (kind := kindTableRead) tag (payload := [table, start, count]) (by decide)
    (Nat.le_of_ble_eq_true rfl)
  have arrived := requestArrived_arrived .own kindTableRead tag [table, start, count] awake
  generalize requestArrived .own kindTableRead tag [table, start, count] s = u at run arrived
  obtain ⟨uIdle, -⟩ := arrived.up idle
  have refused {r : Result} (judged : judgeRead table start count = .error r) :
      Told .own s (settle (uOutside (tableReadRequest .own tag [table, start, count] u))) tag kindTableRead r [] := by
    rw [tableReadRequest_of_refused uIdle tag judged]
    exact told_settle arrived (fun _ => idle) (closeWrite_only u) (setRx_only _ _)
  refine ⟨settle (uOutside (tableReadRequest .own tag [table, start, count] u)), run, fun badTable => ?_, fun T isT =>
    ⟨fun beyond => ?_, fun within zero => ?_, fun within positive => ?_⟩, ?_⟩
  · exact refused (judgeRead_of_badTable badTable)
  · exact refused (judgeRead_of_badRange isT beyond)
  · exact refused (judgeRead_of_badValue isT within zero)
  · have answered := tableReadRequest_of_accepted uIdle tag (judgeRead_of_accepted isT within positive)
    have tables : (closeWrite u).tables = s.tables := arrived.lines.only .tables (by decide)
    rw [answered, readData, tables, ← isT, byteOf_toNat, byteOf_toNat]
    exact told_settle arrived (fun _ => idle) (closeWrite_only u) (setRx_only _ _)
  · have worked : OnlyIn [.openWrite, .returnPath, .receiver] u
        (uOutside (tableReadRequest .own tag [table, start, count] u)) :=
      (tableReadRequest_only uIdle tag).comp (setRx_only _ _)
    exact arrived.lines.only.comp (worked.comp (settle_only _) (rs := .openWrite :: frameParts))

/-! ### The bank in use on each link (R108) -/

/-- The panels of an adopting link are recomposed after the link has taken the selected bank. -/
theorem adopt_keepsLines (l : LinkIx) (s : State) :
    KeepsLines recomposeParts (s.setLink l { s.link l with bank := s.mgmt.selected }) (adopt l s) :=
  .forEach _ _ fun p s => (KeepsLines.of_only (setContent_only s p _)).comp (rerouted_keepsLines p _)

/-- An adoption changes the bank of its own link alone. -/
theorem adopt_bank (l k : LinkIx) (s : State) :
    ((adopt l s).link k).bank = if k = l then s.mgmt.selected else (s.link k).bank := by
  rw [(adopt_keepsLines l s).bank, State.setLink_link]
  simp only [eq_comm (a := l)]
  split <;> rfl

/-- After its boundary a link stands in the selected bank, whether an adoption was pending or not. -/
theorem adoptPending_bank (l k : LinkIx) (s : State) :
    ((adoptPending l s).link k).bank = if k = l then s.mgmt.selected else (s.link k).bank := by
  cases pending : s.adoptionPending l with
  | true => rw [adoptPending, if_pos pending, adopt_bank]
  | false =>
    have same : (s.link l).bank = s.mgmt.selected := by simpa [State.adoptionPending] using pending
    rw [adoptPending, if_neg (by simp [pending])]
    split
    · next here => rw [here, same]
    · rfl

theorem adoptPending_recomposes (l : LinkIx) (s : State) : OnlyIn recomposeParts s (adoptPending l s) :=
  OnlyIn.ite (fun _ => (setLink_only s l _).comp (adopt_keepsLines l s).only) fun _ => OnlyIn.refl _ s

theorem forEach_adoptPending_bank (ls : List LinkIx) (k : LinkIx) (s : State) :
    ((forEach ls adoptPending s).link k).bank = if k ∈ ls then s.mgmt.selected else (s.link k).bank := by
  induction ls generalizing s with
  | nil => simp [forEach_nil]
  | cons l ls ih =>
    have selected : (adoptPending l s).mgmt.selected = s.mgmt.selected := (adoptPending_only s l).selected_eq
    rw [forEach_cons, ih, selected, adoptPending_bank]
    by_cases here : k = l <;> simp [here]

theorem bankSelected_bank (k : LinkIx) (s : State) :
    ((bankSelected s).link k).bank = if s.atBoundary k = true then s.mgmt.selected else (s.link k).bank := by
  rw [bankSelected, forEach_adoptPending_bank]
  simp [allLinks]

theorem bankSelected_recomposes (s : State) : OnlyIn recomposeParts s (bankSelected s) :=
  forEach_only _ s adoptPending_recomposes

theorem pick_bank (l k : LinkIx) (s : State) : ((pick l s).link k).bank = (s.link k).bank := by
  by_cases here : l = k
  · subst here
    unfold pick
    split
    · split
      · rfl
      · rw [beginPhase, State.setLink_link_self]
      · rw [beginSequence, State.setLink_link_self]
    · rfl
  · rw [link_pick_of_ne here]

/-- No pick changes a bank in use. -/
theorem settle_bank (k : LinkIx) (s : State) : ((settle s).link k).bank = (s.link k).bank := by
  have picks : ((pickAll s).link k).bank = (s.link k).bank :=
    forEach_keeps (P := fun t => (t.link k).bank = (s.link k).bank) rfl fun l _ t same => (pick_bank l k t).trans same
  rw [settle, (pickUp_only _).link_eq, picks]

/-! ### BANK SELECT -/

theorem Bank.ofCode_code (bank : Bank) : Bank.ofCode bank.code = some bank := by cases bank <;> rfl

theorem Bank.ofCode_of_two_le : ∀ {n : Nat}, 2 ≤ n → Bank.ofCode n = none
  | _ + 2, _ => rfl

/-- The bank is selected and the open write closed (R176, R179); no controller has been told yet. -/
def selectBank (bank : Bank) (s : State) : State := s.setMgmt { s.mgmt with openWrite := none, selected := bank }

theorem selectBank_only (bank : Bank) (s : State) : OnlyIn [.openWrite, .selected] s (selectBank bank s) := fun q h => by
  cases q with
  | openWrite | selected => exact absurd (by decide) h
  | _ => rfl

section
variable {s : State} {dest : Dest} (idle : dest = .own → s.up.reply = none) (tag : Byte) {b : Byte}
include idle

theorem bankSelectRequest_of_code {bank : Bank} (code : Bank.ofCode b.toNat = some bank) :
    bankSelectRequest dest tag [b] s = bankSelected (answer dest tag kindBankSelect .accepted [] (selectBank bank s)) := by
  rw [bankSelectRequest, request_of_no_reply idle]
  simp only [closing, payload1, code]
  rfl

theorem bankSelectRequest_of_no_code (code : Bank.ofCode b.toNat = none) :
    bankSelectRequest dest tag [b] s = answer dest tag kindBankSelect .badValue [] (closeWrite s) := by
  rw [bankSelectRequest, request_of_no_reply idle]
  simp only [closing, payload1, code]

end

theorem atBoundary_iff (s : State) (l : LinkIx) :
    s.atBoundary l = true ↔ (s.link l).sequence = none ∧ s.exerciseInFlight l = false := by
  simp [State.atBoundary]

section
variable {s u t : State} {dest : Dest} {tag : Byte} (arrived : Arrived s u) (idle : dest = .own → s.up.reply = none)
include arrived idle

theorem bankSelect_accepted {bank : Bank}
    (ends : t = settle (uOutside (bankSelected (answer dest tag kindBankSelect .accepted [] (selectBank bank u))))) :
    t.mgmt.selected = bank
      ∧ (∀ l, (t.link l).bank = if s.atBoundary l = true then bank else (s.link l).bank)
      ∧ Told dest s t tag kindBankSelect .accepted [] ∧ OnlyIn ([.openWrite, .selected] ++ frameParts) s t := by
  have answered : OnlyIn [.openWrite, .selected, .returnPath] u
      (answer dest tag kindBankSelect .accepted [] (selectBank bank u)) :=
    (selectBank_only bank u).comp (answer_only _ _ _ _ _ _)
  have selected : (answer dest tag kindBankSelect .accepted [] (selectBank bank u)).mgmt.selected = bank :=
    (answer_only _ _ _ _ _ _).selected_eq
  have told : Told dest s t tag kindBankSelect .accepted [] :=
    ends ▸ told_settle arrived idle (selectBank_only bank u)
      ((bankSelected_recomposes _).comp (setRx_only _ _) (rs := .receiver :: recomposeParts))
  generalize answer dest tag kindBankSelect .accepted [] (selectBank bank u) = a at ends answered selected
  have adopted : OnlyIn (.receiver :: composeParts) a t :=
    ends ▸ ((bankSelected_recomposes a).comp (setRx_only _ _) (rs := .receiver :: composeParts)).comp (settle_only _)
  have lines := arrived.lines.comp (KeepsLines.of_only answered) (rs := [.openWrite, .selected] ++ frameParts)
  refine ⟨adopted.selected_eq.trans selected, fun l => ?_, told, lines.only.comp adopted⟩
  calc (t.link l).bank
      = ((bankSelected a).link l).bank := ends ▸ settle_bank l _
    _ = if s.atBoundary l = true then bank else (s.link l).bank := by
      rw [bankSelected_bank, selected, lines.boundary, lines.bank]

theorem bankSelect_refused (ends : t = settle (uOutside (answer dest tag kindBankSelect .badValue [] (closeWrite u)))) :
    t.mgmt.selected = s.mgmt.selected ∧ (∀ l, (t.link l).bank = (s.link l).bank)
      ∧ Told dest s t tag kindBankSelect .badValue [] ∧ OnlyIn (.openWrite :: frameParts) s t := by
  have answered : OnlyIn [.openWrite, .returnPath, .receiver] u
      (uOutside (answer dest tag kindBankSelect .badValue [] (closeWrite u))) :=
    ((closeWrite_only u).comp (answer_only _ _ _ _ _ _) (rs := [.openWrite, .returnPath])).comp (setRx_only _ _)
  have told : Told dest s t tag kindBankSelect .badValue [] :=
    ends ▸ told_settle arrived idle (closeWrite_only u) (setRx_only _ _)
  have lines := arrived.lines.comp (KeepsLines.of_only answered) (rs := .openWrite :: frameParts)
  have only : OnlyIn (.openWrite :: frameParts) s t := ends ▸ lines.only.comp (settle_only _)
  refine ⟨only.selected_eq, fun l => ?_, told, only⟩
  rw [ends, settle_bank, lines.bank]

end

/-- Settles O26: a code of neither bank is `bankSelectRequest_of_no_code`; for the others the banks are `bankSelected_bank`, on
lines whose boundaries the arrival of the frame leaves as they were, and no pick changes them. -/
theorem bankSelectIsAdoptedAtBoundaries : Obligations.BankSelectIsAdoptedAtBoundaries := by
  intro dest tag b s takes
  obtain ⟨awake, named⟩ := id takes
  have idle : dest = .own → s.up.reply = none := fun own => (named own).1
  have run := management_of_takes takes (kind := kindBankSelect) tag (payload := [b]) (by decide) (Nat.le_of_ble_eq_true rfl)
  have arrived := requestArrived_arrived dest kindBankSelect tag [b] awake
  generalize requestArrived dest kindBankSelect tag [b] s = u at run arrived
  have uIdle : dest = .own → u.up.reply = none := fun own => (arrived.up (idle own)).1
  have work : takeFrame (requestTarget dest) kindBankSelect tag [b] u = bankSelectRequest dest tag [b] u := by
    cases dest <;> rfl
  rw [work] at run
  refine ⟨_, run, ?_⟩
  cases code : Bank.ofCode b.toNat with
  | none =>
    rw [bankSelectRequest_of_no_code uIdle tag code]
    obtain ⟨selected, banks, told, only⟩ := bankSelect_refused arrived idle rfl (tag := tag)
    refine ⟨fun bank named => ?_, fun _ => ⟨selected, banks, told⟩, only.mono (by decide)⟩
    rw [named, Bank.ofCode_code] at code
    cases code
  | some bank =>
    rw [bankSelectRequest_of_code uIdle tag code]
    obtain ⟨selected, banks, told, only⟩ := bankSelect_accepted arrived idle rfl (tag := tag) (bank := bank)
    refine ⟨fun bank' named => ?_, fun other => ?_, only⟩
    · obtain rfl : bank' = bank := by rwa [named, Bank.ofCode_code, Option.some.injEq] at code
      simp only [atBoundary_iff] at banks
      exact ⟨selected, banks, told⟩
    · rw [Bank.ofCode_of_two_le other] at code
      cases code

end Sys2Proof.Machine
end
